-- ==== Sys2Proof/Word.lean ====
section
/-! DEFINITION. The small types every other file speaks of: which channel, which auxiliary input, a note value, and
one word as the environment presents it at one of the three input ports. -/

namespace Sys2Proof

/-- The two audio channels, 0 = "A" and 1 = "B" (00_scope.md R2). -/
inductive Chan where
  | ch0
  | ch1
deriving DecidableEq, Repr

/-- The two auxiliary inputs (00_scope.md R2). -/
inductive Aux where
  | in0
  | in1
deriving DecidableEq, Repr

/-- A valid note, 0 to 127 (00_scope.md R12). -/
abbrev Note := BitVec 7

/-- A note value: `some n` is the spec's `Note(n)`, `none` its `NoNote` (00_scope.md R12). -/
abbrev NoteValue := Option Note

/-- One word at an input port. The port tells the format (30_encoding.md R80): `C` is the 24-bit command word, `S` the
12-bit sample event word, `T` the housekeeping tick, which carries no bits. -/
inductive PortWord where
  | cmd (w : BitVec 24)
  | adc (a : BitVec 12)
  | tick
deriving DecidableEq, Repr

end Sys2Proof
end

