-- ==== Sys2Proof/Config.lean ====
section
/-! DEFINITION. What an implementation of KQCORE fixes: the twelve-register Configuration as a record, and the parameter
record `P` of 00_scope.md R8 with its constraints and the reference instantiation REF. -/

namespace Sys2Proof

/-- The three quantization modes, numbered 0, 1, 2 (10_state.md R23). -/
inductive QMode where
  | nearest
  | skip
  | equal
deriving DecidableEq, Repr

/-- The eight auxiliary modes, numbered 0 to 6 and 255 (10_state.md R23). -/
inductive AuxMode where
  | rotate
  | transpose
  | transpose1
  | offset
  | offset1
  | gateLength
  | scaleRecall
  | off
deriving DecidableEq, Repr

/-- The Configuration: the twelve registers at 0x00 to 0x0B (10_state.md R22). The four transpose and offset values are
signed. -/
structure Configuration where
  scale  : BitVec 16
  gli    : BitVec 4
  brot   : BitVec 4
  trg    : BitVec 8
  trc    : BitVec 8
  ofg    : BitVec 8
  ofc    : BitVec 8
  legato : Bool
  qmode  : QMode
  tds    : BitVec 4
  auxm0  : AuxMode
  auxm1  : AuxMode
deriving DecidableEq, Repr

/-- The built-in default Configuration that 10_state.md R24 prints. -/
def Configuration.builtin : Configuration :=
  { scale := 0xFFF0, gli := 0, brot := 0, trg := 0, trc := 0, ofg := 0, ofc := 0, legato := false,
    qmode := .nearest, tds := 0, auxm0 := .off, auxm1 := .off }

/-- The legal columns of 10_state.md R22 that the types do not already give: no scale uses its low 4 bits, and the three
4-bit indices are 0 to 11. -/
def Configuration.legal (c : Configuration) : Bool :=
  decide (c.scale.extractLsb' 0 4 = 0) && decide (c.gli.toNat < 12) && decide (c.brot.toNat < 12) &&
    decide (c.tds.toNat < 12)

/-- The parameter record `P` (00_scope.md R8), with the two model switches of 92_eei_decisions.md D9 and D15. -/
structure Params where
  hystUp          : Nat
  hystDn          : Nat
  auxHystUp       : Nat
  auxHystDn       : Nat
  settle          : Nat
  trigTimeout     : Nat
  trigDebounceMin : Nat
  trigDelayK      : Nat
  auxCenter       : Nat
  gateZero        : Nat
  gateTable       : Vector Nat 12
  oneCh           : Chan
  saveDelay       : Nat
  defaults        : Configuration
  bank0           : Vector (BitVec 16) 12
  /-- `TIE_REM_BIASED`: the tie-break remainder is taken from the biased sample (D9). -/
  tieRemBiased    : Bool
  /-- `LEGATO_ARMS`: legato suppresses the clearing of the gate only (D15). -/
  legatoArms      : Bool
deriving DecidableEq, Repr

/-- `GATE_TABLE[i]`. -/
def Params.gateAt (p : Params) (i : Nat) : Nat := p.gateTable.getD i 0

/-- The constraint column of 00_scope.md R8. -/
def Params.valid (p : Params) : Bool :=
  decide (1 ≤ p.hystUp ∧ p.hystUp ≤ 4 ∧ p.hystDn < p.hystUp) &&
  decide (1 ≤ p.auxHystUp ∧ p.auxHystUp ≤ 4 ∧ p.auxHystDn < p.auxHystUp) &&
  decide (1 ≤ p.settle ∧ p.settle ≤ 127) &&
  decide (1 + 11 * p.trigDelayK < p.trigTimeout ∧ p.trigTimeout ≤ 65535 ∧ p.trigDebounceMin < p.trigTimeout) &&
  decide (1 ≤ p.trigDebounceMin ∧ 1 + 11 * p.trigDelayK ≤ 255) &&
  decide (p.auxCenter ≤ 127 ∧ p.gateZero ≤ 1023) &&
  decide (p.gateAt 0 = 5 ∧ p.gateAt 1 = 50) &&
  (List.range 12).all (fun i => decide (1 ≤ p.gateAt i ∧ p.gateAt i ≤ 32767)) &&
  (List.range 11).all (fun i => decide (p.gateAt i ≤ p.gateAt (i + 1))) &&
  decide (p.oneCh = .ch1) && decide (p.saveDelay ≤ 65535) && p.defaults.legal

/-- REF, the reference instantiation of 00_scope.md R8. Its values are placeholders of the spec, not facts about the
original firmware (R9); a statement that is not about the reset state holds for every `P`. -/
def Params.ref : Params :=
  { hystUp := 3, hystDn := 2, auxHystUp := 3, auxHystDn := 2, settle := 2, trigTimeout := 2000,
    trigDebounceMin := 2, trigDelayK := 4, auxCenter := 60, gateZero := 480,
    gateTable := #v[5, 50, 75, 110, 160, 240, 350, 500, 750, 1100, 1600, 2400],
    oneCh := .ch1, saveDelay := 2000, defaults := Configuration.builtin, bank0 := Vector.replicate 12 0,
    tieRemBiased := true, legatoArms := true }

end Sys2Proof
end

