-- ==== Sys2Proof/Syntax.lean ====
section
/-! DEFINITION. The instructions: one constructor for each row of spec/opcode_table.json. Operands are the raw fields of
the encoding (30_encoding.md R84); which of their values are legal is the business of WellFormed.lean. -/

namespace Sys2Proof

/-- The 24 command words (30_encoding.md R85) and the two events (R82, R83). -/
inductive Instr where
  | nop
  | toggle (k : BitVec 4)
  | recall (b : BitVec 4)
  | savebank (b : BitVec 4)
  | setscale (v : BitVec 16)
  | setgli (i : BitVec 4)
  | setrot (r : BitVec 4)
  | settrg (v : BitVec 8)
  | settrc (v : BitVec 8)
  | setofg (v : BitVec 8)
  | setofc (v : BitVec 8)
  | setleg (f : Bool)
  | setqm (m : BitVec 2)
  | settds (d : BitVec 4)
  | setauxm (a : Aux) (m : BitVec 8)
  | kbdoff
  | kbdon
  | kbdnote (o : BitVec 4) (n : BitVec 4)
  | trigedge (c : Chan)
  | hret
  | commit
  | start
  | cfgdef
  | rdreg (addr : BitVec 8)
  | adcdone (t1 : Bool) (t0 : Bool) (raw : BitVec 10)
  | hktick
deriving DecidableEq, Repr

end Sys2Proof
end

