-- ==== Sys2Proof/WellFormed.lean ====
section
/-! DEFINITION. The operand checks of 30_encoding.md R86, one per operation that has one. -/

namespace Sys2Proof

/-- An index, rotation, delay setting or semitone is 0 to 11 (R86). -/
def below12 (x : BitVec 4) : Bool := decide (x.toNat < 12)

/-- A quantization mode is 0, 1 or 2 (R86). -/
def legalQMode (m : BitVec 2) : Bool := decide (m.toNat < 3)

/-- An auxiliary mode is 0 to 6 or 255 (R86). -/
def legalAuxMode (m : BitVec 8) : Bool := decide (m.toNat < 7 ∨ m.toNat = 255)

/-- Whether every operand of an instruction passes its check (R86). -/
def Instr.wf : Instr → Bool
  | .nop => true
  | .toggle k => below12 k
  | .recall b => below12 b
  | .savebank b => below12 b
  | .setscale _ => true
  | .setgli i => below12 i
  | .setrot r => below12 r
  | .settrg _ => true
  | .settrc _ => true
  | .setofg _ => true
  | .setofc _ => true
  | .setleg _ => true
  | .setqm m => legalQMode m
  | .settds d => below12 d
  | .setauxm _ m => legalAuxMode m
  | .kbdoff => true
  | .kbdon => true
  | .kbdnote _ n => below12 n
  | .trigedge _ => true
  | .hret => true
  | .commit => true
  | .start => true
  | .cfgdef => true
  | .rdreg _ => true
  | .adcdone _ _ _ => true
  | .hktick => true

/-- A well-formed instruction: the operand checks of R86 pass. -/
abbrev WellFormed (i : Instr) : Prop := i.wf = true

end Sys2Proof
end

