-- ==== Sys2Proof/Decode.lean ====
section
/-! DEFINITION. From a word at an input port to an instruction, and back. `decode` is total: it answers an instruction, or
rejects a command word by the name of the check that failed (30_encoding.md R86, R87). `encode` is written from the same
opcode map (R85). The map itself stands here a second time as the spec prints it, in `match`/`mask` form, so that the
decoder can be held against it. -/

namespace Sys2Proof

/-- Why a command word decodes to nothing: it matches no row (R87), or an operand check fails (R86). -/
inductive Reject where
  | illegal
  | operand
deriving DecidableEq, Repr

/-- `OP`, bits 23:20 of a command word (30_encoding.md R81). -/
def fieldOP (w : BitVec 24) : BitVec 4 := w.extractLsb' 20 4

/-- `IX`, bits 19:16 of a command word (30_encoding.md R81). -/
def fieldIX (w : BitVec 24) : BitVec 4 := w.extractLsb' 16 4

/-- `DATA`, bits 15:0 of a command word (30_encoding.md R81). -/
def fieldDATA (w : BitVec 24) : BitVec 16 := w.extractLsb' 0 16

/-- A row whose unused bits must be zero is selected only if they are (R84). -/
def rowIf (zero : Bool) (i : Instr) : Option Instr := if zero then some i else none

/-- The rows with major opcode 4, chosen by `IX` (R85). -/
def selectSet (ix : BitVec 4) (d : BitVec 16) : Option Instr :=
  match ix.toNat with
  | 0 => some (.setscale d)
  | 1 => rowIf (decide (d.extractLsb' 4 12 = 0)) (.setgli (d.extractLsb' 0 4))
  | 2 => rowIf (decide (d.extractLsb' 4 12 = 0)) (.setrot (d.extractLsb' 0 4))
  | 3 => rowIf (decide (d.extractLsb' 8 8 = 0)) (.settrg (d.extractLsb' 0 8))
  | 4 => rowIf (decide (d.extractLsb' 8 8 = 0)) (.settrc (d.extractLsb' 0 8))
  | 5 => rowIf (decide (d.extractLsb' 8 8 = 0)) (.setofg (d.extractLsb' 0 8))
  | 6 => rowIf (decide (d.extractLsb' 8 8 = 0)) (.setofc (d.extractLsb' 0 8))
  | 7 => rowIf (decide (d.extractLsb' 1 15 = 0)) (.setleg (d.getLsbD 0))
  | 8 => rowIf (decide (d.extractLsb' 2 14 = 0)) (.setqm (d.extractLsb' 0 2))
  | 9 => rowIf (decide (d.extractLsb' 4 12 = 0)) (.settds (d.extractLsb' 0 4))
  | _ => none

/-- The rows with major opcode 6, chosen by `IX` (R85). -/
def selectKbd (ix : BitVec 4) (d : BitVec 16) : Option Instr :=
  match ix.toNat with
  | 0 => rowIf (decide (d = 0)) .kbdoff
  | 1 => rowIf (decide (d = 0)) .kbdon
  | 2 => rowIf (decide (d.extractLsb' 8 8 = 0)) (.kbdnote (d.extractLsb' 4 4) (d.extractLsb' 0 4))
  | _ => none

/-- The row a command word selects, with its operand fields taken out (R84, R85); none if it matches no row (R87). -/
def selectRow (w : BitVec 24) : Option Instr :=
  let ix := fieldIX w
  let d := fieldDATA w
  match (fieldOP w).toNat with
  | 0x0 => rowIf (decide (ix = 0 ∧ d = 0)) .nop
  | 0x1 => rowIf (decide (d = 0)) (.toggle ix)
  | 0x2 => rowIf (decide (d = 0)) (.recall ix)
  | 0x3 => rowIf (decide (d = 0)) (.savebank ix)
  | 0x4 => selectSet ix d
  | 0x5 => rowIf (decide (ix.extractLsb' 1 3 = 0 ∧ d.extractLsb' 8 8 = 0))
             (.setauxm (if ix.getLsbD 0 then .in1 else .in0) (d.extractLsb' 0 8))
  | 0x6 => selectKbd ix d
  | 0x7 => rowIf (decide (ix.extractLsb' 1 3 = 0 ∧ d = 0)) (.trigedge (if ix.getLsbD 0 then .ch1 else .ch0))
  | 0x8 => rowIf (decide (ix = 0 ∧ d = 0)) .hret
  | 0x9 => rowIf (decide (ix = 0 ∧ d = 0)) .commit
  | 0xA => rowIf (decide (ix = 0 ∧ d = 0)) .start
  | 0xB => rowIf (decide (ix = 0 ∧ d = 0)) .cfgdef
  | 0xC => rowIf (decide (ix = 0 ∧ d.extractLsb' 8 8 = 0)) (.rdreg (d.extractLsb' 0 8))
  | _ => none

/-- The operand checks come after a row is selected and before any state changes (R86). -/
def checkOperands (i : Instr) : Except Reject Instr := if i.wf then .ok i else .error .operand

/-- A command word: `ILLEGAL` before `OPERAND` (R88). -/
def decodeCommand (w : BitVec 24) : Except Reject Instr :=
  match selectRow w with
  | none => .error .illegal
  | some i => checkOperands i

/-- A sample event word (R82): `RAW` is bits 9:0, `T0` bit 10, `T1` bit 11; all 4096 values are legal. -/
def decodeSample (a : BitVec 12) : Instr := .adcdone (a.getLsbD 11) (a.getLsbD 10) (a.extractLsb' 0 10)

/-- The instruction of a word at an input port; the port tells the format (R80). -/
def decode : PortWord → Except Reject Instr
  | .cmd w => decodeCommand w
  | .adc a => .ok (decodeSample a)
  | .tick => .ok .hktick

/-- A command word from its three fields (R81). -/
def commandWord (op ix : BitVec 4) (d : BitVec 16) : PortWord := .cmd (op ++ ix ++ d)

/-- An auxiliary input's or a channel's number as an index field. -/
def Aux.index : Aux → BitVec 4
  | .in0 => 0
  | .in1 => 1

/-- A channel's number as an index field. -/
def Chan.index : Chan → BitVec 4
  | .ch0 => 0
  | .ch1 => 1

/-- The word of an instruction at its own port, from the opcode map (R85) and the operand places (R84). -/
def encode : Instr → PortWord
  | .nop => commandWord 0x0 0 0
  | .toggle k => commandWord 0x1 k 0
  | .recall b => commandWord 0x2 b 0
  | .savebank b => commandWord 0x3 b 0
  | .setscale v => commandWord 0x4 0 v
  | .setgli i => commandWord 0x4 1 (0#12 ++ i)
  | .setrot r => commandWord 0x4 2 (0#12 ++ r)
  | .settrg v => commandWord 0x4 3 (0#8 ++ v)
  | .settrc v => commandWord 0x4 4 (0#8 ++ v)
  | .setofg v => commandWord 0x4 5 (0#8 ++ v)
  | .setofc v => commandWord 0x4 6 (0#8 ++ v)
  | .setleg f => commandWord 0x4 7 (0#15 ++ BitVec.ofBool f)
  | .setqm m => commandWord 0x4 8 (0#14 ++ m)
  | .settds d => commandWord 0x4 9 (0#12 ++ d)
  | .setauxm a m => commandWord 0x5 a.index (0#8 ++ m)
  | .kbdoff => commandWord 0x6 0 0
  | .kbdon => commandWord 0x6 1 0
  | .kbdnote o n => commandWord 0x6 2 (0#8 ++ o ++ n)
  | .trigedge c => commandWord 0x7 c.index 0
  | .hret => commandWord 0x8 0 0
  | .commit => commandWord 0x9 0 0
  | .start => commandWord 0xA 0 0
  | .cfgdef => commandWord 0xB 0 0
  | .rdreg addr => commandWord 0xC 0 (0#8 ++ addr)
  | .adcdone t1 t0 raw => .adc (BitVec.ofBool t1 ++ BitVec.ofBool t0 ++ raw)
  | .hktick => .tick

/-- One row of the opcode map as the spec prints it: a word `W` selects the row if `W & mask = pattern` (R85). -/
structure OpcodeRow where
  mnemonic : String
  pattern  : BitVec 24
  mask     : BitVec 24
deriving DecidableEq, Repr

/-- The 24 rows of the table of 30_encoding.md R85. -/
def opcodeMap : List OpcodeRow :=
  [⟨"NOP", 0x000000, 0xFFFFFF⟩, ⟨"TOGGLE", 0x100000, 0xF0FFFF⟩, ⟨"RECALL", 0x200000, 0xF0FFFF⟩,
   ⟨"SAVEBANK", 0x300000, 0xF0FFFF⟩, ⟨"SETSCALE", 0x400000, 0xFF0000⟩, ⟨"SETGLI", 0x410000, 0xFFFFF0⟩,
   ⟨"SETROT", 0x420000, 0xFFFFF0⟩, ⟨"SETTRG", 0x430000, 0xFFFF00⟩, ⟨"SETTRC", 0x440000, 0xFFFF00⟩,
   ⟨"SETOFG", 0x450000, 0xFFFF00⟩, ⟨"SETOFC", 0x460000, 0xFFFF00⟩, ⟨"SETLEG", 0x470000, 0xFFFFFE⟩] ++
  [⟨"SETQM", 0x480000, 0xFFFFFC⟩, ⟨"SETTDS", 0x490000, 0xFFFFF0⟩, ⟨"SETAUXM", 0x500000, 0xFEFF00⟩,
   ⟨"KBDOFF", 0x600000, 0xFFFFFF⟩, ⟨"KBDON", 0x610000, 0xFFFFFF⟩, ⟨"KBDNOTE", 0x620000, 0xFFFF00⟩,
   ⟨"TRIGEDGE", 0x700000, 0xFEFFFF⟩, ⟨"HRET", 0x800000, 0xFFFFFF⟩, ⟨"COMMIT", 0x900000, 0xFFFFFF⟩,
   ⟨"START", 0xA00000, 0xFFFFFF⟩, ⟨"CFGDEF", 0xB00000, 0xFFFFFF⟩, ⟨"RDREG", 0xC00000, 0xFFFF00⟩]

/-- Whether a command word selects a row (R85). -/
def OpcodeRow.selects (r : OpcodeRow) (w : BitVec 24) : Bool := decide (w &&& r.mask = r.pattern)

/-- The spec's name of an instruction (30_encoding.md R85, R90). -/
def Instr.mnemonic : Instr → String
  | .nop => "NOP"
  | .toggle _ => "TOGGLE"
  | .recall _ => "RECALL"
  | .savebank _ => "SAVEBANK"
  | .setscale _ => "SETSCALE"
  | .setgli _ => "SETGLI"
  | .setrot _ => "SETROT"
  | .settrg _ => "SETTRG"
  | .settrc _ => "SETTRC"
  | .setofg _ => "SETOFG"
  | .setofc _ => "SETOFC"
  | .setleg _ => "SETLEG"
  | .setqm _ => "SETQM"
  | .settds _ => "SETTDS"
  | .setauxm _ _ => "SETAUXM"
  | .kbdoff => "KBDOFF"
  | .kbdon => "KBDON"
  | .kbdnote _ _ => "KBDNOTE"
  | .trigedge _ => "TRIGEDGE"
  | .hret => "HRET"
  | .commit => "COMMIT"
  | .start => "START"
  | .cfgdef => "CFGDEF"
  | .rdreg _ => "RDREG"
  | .adcdone _ _ _ => "ADCDONE"
  | .hktick => "HKTICK"

/-- The word at an input port that a table row's bits stand for, by the row's width in whole bytes: 24 bits is format `C`,
12 bits (16 in whole bytes) format `S`, no bits (or one byte of zeros) format `T` (R80, entry 13 of the log). -/
def portWord (nbits w : Nat) : Option PortWord :=
  if nbits = 24 then (if w < 2 ^ 24 then some (.cmd (BitVec.ofNat 24 w)) else none)
  else if nbits = 12 ∨ nbits = 16 then (if w < 2 ^ 12 then some (.adc (BitVec.ofNat 12 w)) else none)
  else if (nbits = 0 ∨ nbits = 8) ∧ w = 0 then some .tick
  else none

/-- The instruction the decoder reads from a table row's bits; none where it rejects. -/
def decodeTableWord (nbits w : Nat) : Option Instr :=
  match portWord nbits w with
  | none => none
  | some p =>
    match decode p with
    | .ok i => some i
    | .error _ => none

end Sys2Proof
end

