-- ==== Sys2Proof/Machine/Derived.lean ====
section
/-! DEFINITION. The pure functions behind the two derived registers: `En`, `Rot12` and `Rot` of the Scale Model
(40_scale_model.md R100, R101) and `GateLen` of the Gate-Length Calculator (44_gate_length.md R200). -/

namespace Sys2Proof.Machine

/-- `En(w, k)`: semitone `k`, taken modulo 12 with the floor remainder, is enabled in `w` (40_scale_model.md R100). -/
def en (w : BitVec 16) (k : Int) : Bool := w.getLsbD (4 + (k % 12).toNat)

/-- A scale word is empty when no semitone is enabled: `w[15:4] = 0` (40_scale_model.md R100). -/
def emptyScale (w : BitVec 16) : Bool := decide (w.extractLsb' 4 12 = 0)

/-- `Rot12(f, r)`, the 12-bit left rotation (40_scale_model.md R101). -/
def rot12 (f : BitVec 12) (r : Nat) : BitVec 12 := (f <<< r) ||| (f >>> (12 - r))

/-- `Rot(scale, brot, arot)` (40_scale_model.md R101). -/
def rot (scale : BitVec 16) (brot arot : BitVec 4) : BitVec 16 :=
  rot12 (scale.extractLsb' 4 12) ((brot.toNat + arot.toNat) % 12) ++ 0#4

/-- `GateLen(gli, ovgi, ovgr)` (44_gate_length.md R200), in integers with floor division (00_scope.md R11). -/
def gateLen (p : Params) (gli : Nat) (ovgi : Int) (ovgr : Nat) : Int :=
  let i : Int := gli + ovgi
  if i < 0 then p.gateAt 0
  else if 11 ≤ i then p.gateAt 11
  else
    let lo : Int := p.gateAt i.toNat
    let hi : Int := p.gateAt (i.toNat + 1)
    lo + (ovgr * (hi - lo)) / 39

end Sys2Proof.Machine
end

