-- ==== Sys2Proof/Machine/Memory.lean ====
section
/-! DEFINITION. The address space `BANK`: 12 words of 16 bits (20_memory.md R60 to R62), held as a list of (address, byte)
pairs in one canonical form. Word `b` is the bytes at `2*b` (bits 7:0) and `2*b + 1` (bits 15:8); no operation reads or
writes part of a word, so that order is not observable (R65, entry 8 of the log). An unlisted byte reads 0, which is
`BANK0` under REF (00_scope.md R8). An index is a `Fin 12`: an access outside the space cannot be written down (R63). -/

namespace Sys2Proof.Machine

/-- The bank memory's cells, addresses strictly rising, no cell holding 0. -/
abbrev Memory := List Host.Cell

/-- How many bytes the address space has: 12 words of 16 bits. -/
def Memory.size : Nat := 24

/-- One byte; an unlisted address reads 0. -/
def Memory.readByte : Memory → Nat → BitVec 8
  | [], _ => 0#8
  | (b, v) :: m, a => if a = b then v else Memory.readByte m a

/-- A cell in front of a list, unless it holds what an unlisted address reads. -/
def Memory.cons (a : Nat) (v : BitVec 8) (m : Memory) : Memory := if v = 0#8 then m else (a, v) :: m

/-- Writes one byte and keeps the canonical form. -/
def Memory.writeByte : Memory → Nat → BitVec 8 → Memory
  | [], a, v => Memory.cons a v []
  | (b, w) :: m, a, v =>
    if a < b then Memory.cons a v ((b, w) :: m)
    else if a = b then Memory.cons a v m
    else (b, w) :: Memory.writeByte m a v

/-- Every listed address is at least `lo`, the addresses rise strictly from there, and no cell holds 0. -/
def Memory.sortedFrom : Nat → Memory → Bool
  | _, [] => true
  | lo, (a, v) :: m => decide (lo ≤ a) && decide (a < Memory.size) && decide (v ≠ 0#8) && Memory.sortedFrom (a + 1) m

/-- The canonical form: addresses inside the space and strictly rising, no cell equal to what an unlisted address reads. -/
def Memory.wf (m : Memory) : Bool := Memory.sortedFrom 0 m

/-- `BankRead(b)` (20_memory.md R61). -/
def Memory.bankRead (m : Memory) (b : Fin 12) : BitVec 16 :=
  Memory.readByte m (2 * b.val + 1) ++ Memory.readByte m (2 * b.val)

/-- `BankWrite(b, v)` (20_memory.md R62). -/
def Memory.bankWrite (m : Memory) (b : Fin 12) (v : BitVec 16) : Memory :=
  Memory.writeByte (Memory.writeByte m (2 * b.val) (v.extractLsb' 0 8)) (2 * b.val + 1) (v.extractLsb' 8 8)

/-- Writes the first `n` banks of `BANK0` into an empty memory. -/
def Memory.loadBanks (bank0 : Vector (BitVec 16) 12) : Nat → Memory
  | 0 => []
  | n + 1 => if h : n < 12 then Memory.bankWrite (Memory.loadBanks bank0 n) ⟨n, h⟩ (bank0.getD n 0)
             else Memory.loadBanks bank0 n

/-- The bank memory holding the persistent contents `BANK0` (20_memory.md R62, 10_state.md R49). -/
def Memory.ofBank0 (bank0 : Vector (BitVec 16) 12) : Memory := Memory.loadBanks bank0 12

end Sys2Proof.Machine
end

