-- ==== Sys2Proof/Machine/State.lean ====
section
/-! DEFINITION. The state of KQCORE as plain data, and the state after reset. Every register of 10_state.md stands here
under its own name, with the bank memory and the output ports that are not a register shown continuously. Three fields
are the model's own and marked so: `params`, `storageBusy`, `input`. -/

namespace Sys2Proof.Machine

/-- No operation of KQCORE faults: it has no synchronous exception and no fault mechanism (60_exceptions.md R240, R241;
93_implementation_defined.md section 1). The type is empty, so a fault cannot be answered. -/
inductive Fault where
deriving DecidableEq, Repr

/-- Why an operation is refused (60_exceptions.md R243). -/
inductive Refusal where
  /-- Raised by `exec` for an instruction that has no meaning yet. Safe: nothing can be proved of it. -/
  | notModelled (mnemonic : String)
  /-- Raised by the step for a command word that matches no row of the opcode map, response code 1 (30_encoding.md R87). Safe:
  no state is answered. -/
  | illegal
  /-- Raised by the step for a command word whose operand check fails, and by a meaning for such an operand, response code 2
  (30_encoding.md R86). Safe: no state is answered. -/
  | operand
  /-- Raised by `HRET` and `COMMIT` at a level they may not run at, response code 3 (60_exceptions.md R256). Safe: no
  state is answered. -/
  | level
deriving DecidableEq, Repr

/-- The mode flag `MODE[c]`: 0 free-running, 1 triggered (10_state.md R30). -/
inductive ChanMode where
  | freeRunning
  | triggered
deriving DecidableEq, Repr

/-- The runtime registers of one channel, at base address `0x30 + 8c` (10_state.md R30). `gph` is signed. -/
structure Channel where
  out    : BitVec 7
  lgn    : BitVec 8
  gph    : BitVec 16
  mode   : ChanMode
  tcnt   : BitVec 16
  tdly   : BitVec 8
  gate   : Bool
  elatch : Bool
deriving DecidableEq, Repr

/-- The modulation overlay (10_state.md R28): `tr`ac is `OVTR[a][c]`, `of`ac is `OVOF[a][c]`, `gi` and `gr` are `OVGI` and
`OVGR`. All but `arot` and `gr` are signed. -/
structure Overlay where
  arot : BitVec 4
  tr00 : BitVec 8
  tr01 : BitVec 8
  tr10 : BitVec 8
  tr11 : BitVec 8
  of00 : BitVec 8
  of01 : BitVec 8
  of10 : BitVec 8
  of11 : BitVec 8
  gi   : BitVec 8
  gr   : BitVec 6
deriving DecidableEq, Repr

/-- The response to a command word, `rsp_code` and `rsp_data` (30_encoding.md R88). -/
structure Response where
  code : BitVec 2
  data : BitVec 16
deriving DecidableEq, Repr

/-- What the latest command word or dispatch drove on the output ports of 10_state.md R47 that are not registers shown
continuously. A strobe is driven for one operation (00_scope.md R13; entry 6 of the log). -/
structure Ports where
  /-- The response, present only when the latest operation was a command word. -/
  rsp      : Option Response
  /-- The strobe `pitch_wr[0]` (10_state.md R31). -/
  pitchWr0 : Bool
  /-- The strobe `pitch_wr[1]` (10_state.md R31). -/
  pitchWr1 : Bool
  /-- The strobe `cfg_save` with its payload (46_system_ops.md R229). -/
  cfgSave  : Option Configuration
  /-- The bank memory's write strobe with its address and data (20_memory.md R62). DESIGN CHOICE: the address output is
  shown only together with the strobe. What it carries on a read or with no access the spec leaves open, and no register
  depends on it (entry 16 of the log). -/
  bankWr   : Option (Fin 12 × BitVec 16)
deriving DecidableEq, Repr

/-- No output strobe driven and no response given. -/
def Ports.idle : Ports := { rsp := none, pitchWr0 := false, pitchWr1 := false, cfgSave := none, bankWr := none }

/-- What the environment does at one point of a run (entry 3 of the log). -/
inductive Input where
  /-- `cmd_valid` with `cmd_word`; held by the environment until it is taken (60_exceptions.md R252). -/
  | cmd (w : BitVec 24)
  /-- `adc_done` with `adc_word`. -/
  | adc (a : BitVec 12)
  /-- `hk_tick`. -/
  | tick
  /-- No strobe at this point: the block takes its next step alone, if it has one. -/
  | quiet
  /-- The storage collaborator moves the level `storage_busy` (10_state.md R47, R48). -/
  | storage (busy : Bool)
  /-- The block is reset while it runs (70_reset_and_hazards.md R270; entry 17 of the log). -/
  | reset
deriving DecidableEq, Repr

/-- The whole machine. -/
structure State where
  /-- The parameter record `P` (00_scope.md R8). The model's own field: no step changes it (entry 1 of the log). -/
  params      : Params
  /-- The Configuration registers 0x00 to 0x0B (10_state.md R22). -/
  cfg         : Configuration
  /-- `RSCALE` (10_state.md R26). -/
  rscale      : BitVec 16
  /-- `GATELEN` (10_state.md R27). -/
  gatelen     : BitVec 16
  /-- The modulation overlay 0x18 to 0x22 (10_state.md R28). -/
  ov          : Overlay
  /-- The runtime registers of channel 0 (10_state.md R30). -/
  ch0         : Channel
  /-- The runtime registers of channel 1 (10_state.md R30). -/
  ch1         : Channel
  /-- `AUXLAST[0]` (10_state.md R34). -/
  auxlast0    : BitVec 7
  /-- `AUXLAST[1]` (10_state.md R34). -/
  auxlast1    : BitVec 7
  /-- `KBDACT` (10_state.md R35). -/
  kbdact      : Bool
  /-- `KBDNOTE` (10_state.md R35). -/
  kbdnote     : BitVec 8
  /-- `KBDTRIG` bit 0 (10_state.md R35). -/
  kbdtrig0    : Bool
  /-- `KBDTRIG` bit 1 (10_state.md R35). -/
  kbdtrig1    : Bool
  /-- `NEXTCH` (10_state.md R44). -/
  nextch      : BitVec 2
  /-- `IEN`, bit 0 of `ISTAT` (10_state.md R37). -/
  ien         : Bool
  /-- `PENDS`, bit 1 of `ISTAT`. -/
  pends       : Bool
  /-- `PENDH`, bit 2 of `ISTAT`. -/
  pendh       : Bool
  /-- `HACT`, bit 3 of `ISTAT`. -/
  hact        : Bool
  /-- `SDATA` (10_state.md R38). -/
  sdata       : BitVec 12
  /-- `SAVETMR` (10_state.md R45). -/
  savetmr     : BitVec 16
  /-- `SAVEPEND` (10_state.md R45). -/
  savepend    : Bool
  /-- `OVERRUN`, the sticky flag that exists in the model only (10_state.md R46). -/
  overrun     : Bool
  /-- The bank memory `BANK` (20_memory.md R60). -/
  bank        : Memory
  /-- The output ports of the latest operation (10_state.md R47). -/
  ports       : Ports
  /-- The level at the input port `storage_busy`. The model's own field (entry 4 of the log). -/
  storageBusy : Bool
  /-- What the environment will present, in order. The model's own field (entry 3 of the log). -/
  input       : List Input
deriving DecidableEq, Repr

/-- A channel after reset (10_state.md R49). -/
def Channel.reset : Channel :=
  { out := 0, lgn := 0, gph := 0, mode := .freeRunning, tcnt := 0, tdly := 0, gate := false, elatch := false }

/-- The neutral overlay, which is also its reset value (10_state.md R29, R49). -/
def Overlay.neutral : Overlay :=
  { arot := 0, tr00 := 0, tr01 := 0, tr10 := 0, tr11 := 0, of00 := 0, of01 := 0, of10 := 0, of11 := 0, gi := 0, gr := 0 }

/-- The state after the first reset of a run with the parameter record `p` (10_state.md R49, 70_reset_and_hazards.md R270):
the Configuration at `DEFAULTS`, the derived registers consistent with it, `NEXTCH = 2`, everything else 0; the banks hold
`BANK0`, their persistent contents. A later reset keeps the banks as they are (`laterReset`). -/
def State.resetWith (p : Params) : State :=
  { params := p
    cfg := p.defaults
    rscale := rot p.defaults.scale p.defaults.brot 0
    gatelen := BitVec.ofInt 16 (gateLen p p.defaults.gli.toNat 0 0)
    ov := Overlay.neutral
    ch0 := Channel.reset
    ch1 := Channel.reset
    auxlast0 := 0
    auxlast1 := 0
    kbdact := false
    kbdnote := 0
    kbdtrig0 := false
    kbdtrig1 := false
    nextch := 2
    ien := false
    pends := false
    pendh := false
    hact := false
    sdata := 0
    savetmr := 0
    savepend := false
    overrun := false
    bank := Memory.ofBank0 p.bank0
    ports := Ports.idle
    storageBusy := false
    input := [] }

/-- The machine right after reset, with the reference parameters REF (entry 1 of the log). -/
def State.reset : State := State.resetWith Params.ref

end Sys2Proof.Machine
end

