-- ==== Sys2Proof/Machine/Operands.lean ====
section
/-! DEFINITION. Operand forms: the checks of 30_encoding.md R86 as functions from raw fields to the values the operations
work on, and `range`, which turns an integer into a note value (00_scope.md R12). -/

namespace Sys2Proof.Machine

/-- `range(n)`: a note for 0 to 127, `NoNote` otherwise (00_scope.md R12). -/
def range (n : Int) : NoteValue := if 0 ≤ n ∧ n ≤ 127 then some (BitVec.ofInt 7 n) else none

/-- A 4-bit index operand that must be 0 to 11 (30_encoding.md R86). -/
def index12 (x : BitVec 4) : Option (Fin 12) := if h : x.toNat < 12 then some ⟨x.toNat, h⟩ else none

/-- `v mod 12` with the floor remainder (00_scope.md R11, 43_aux_processor.md R182). -/
def mod12 (v : Int) : Fin 12 := ⟨(v % 12).toNat, by omega⟩

/-- A quantization mode by its number; 3 is none (10_state.md R23, 30_encoding.md R86). -/
def qmodeOf (m : BitVec 2) : Option QMode :=
  match m.toNat with
  | 0 => some .nearest
  | 1 => some .skip
  | 2 => some .equal
  | _ => none

/-- The number of a quantization mode (10_state.md R23). -/
def qmodeBits : QMode → BitVec 2
  | .nearest => 0
  | .skip => 1
  | .equal => 2

/-- An auxiliary mode by its number; 7 to 254 are none (10_state.md R23, 30_encoding.md R86). -/
def auxModeOf (m : BitVec 8) : Option AuxMode :=
  match m.toNat with
  | 0 => some .rotate
  | 1 => some .transpose
  | 2 => some .transpose1
  | 3 => some .offset
  | 4 => some .offset1
  | 5 => some .gateLength
  | 6 => some .scaleRecall
  | 255 => some .off
  | _ => none

/-- The number of an auxiliary mode (10_state.md R23). -/
def auxModeBits : AuxMode → BitVec 8
  | .rotate => 0
  | .transpose => 1
  | .transpose1 => 2
  | .offset => 3
  | .offset1 => 4
  | .gateLength => 5
  | .scaleRecall => 6
  | .off => 255

/-- The number of a channel mode: 0 free-running, 1 triggered (10_state.md R30). -/
def chanModeBits : ChanMode → BitVec 1
  | .freeRunning => 0
  | .triggered => 1

/-- The value of a keyboard note: `12 * octave + semitone` (42_channel_processor.md R165). -/
def kbdNoteOf (o n : BitVec 4) : BitVec 8 := BitVec.ofNat 8 (12 * o.toNat + n.toNat)

/-- The sample event word put together from its fields (30_encoding.md R82). -/
def sampleWord (t1 t0 : Bool) (raw : BitVec 10) : BitVec 12 := BitVec.ofBool t1 ++ BitVec.ofBool t0 ++ raw

/-- `RAW`, bits 9:0 of a sample word (10_state.md R38). -/
def sampleRaw (a : BitVec 12) : BitVec 10 := a.extractLsb' 0 10

/-- The trigger level of a channel in a sample word: bit 10 of channel 0, bit 11 of channel 1 (10_state.md R38). -/
def sampleLevel (c : Chan) (a : BitVec 12) : Bool :=
  match c with
  | .ch0 => a.getLsbD 10
  | .ch1 => a.getLsbD 11

end Sys2Proof.Machine
end

