-- ==== Sys2Proof/Machine/Flags.lean ====
section
/-! DEFINITION. The one-bit state: KQCORE has no condition codes, and each flag is set and cleared only by the rules named
with it (10_state.md R36). Here stand the procedures that set and clear the scheduler's flags and `SAVEPEND`, and the
view `ISTAT`. -/

namespace Sys2Proof.Machine

/-- `MarkEdit()`: every configuration edit restarts the save delay (46_system_ops.md R222). -/
def markEdit (s : State) : State := { s with savetmr := BitVec.ofNat 16 s.params.saveDelay, savepend := true }

/-- What the event `ADCDONE` does to the scheduler: ignored before `START`; else the word and `PENDS` are latched, and a
word that was still pending is an overrun (45_sampling_sequencer.md R210, 60_exceptions.md R247). -/
def latchSample (a : BitVec 12) (s : State) : State :=
  if s.ien then { s with overrun := s.overrun || s.pends, sdata := a, pends := true } else s

/-- What the event `HKTICK` does: ignored before `START`; else `PENDH` is set, merging with a pending tick
(46_system_ops.md R223). -/
def latchTick (s : State) : State := if s.ien then { s with pendh := true } else s

/-- `ISTAT` reads `{0.., HACT, PENDH, PENDS, IEN}` (46_system_ops.md R226). -/
def istat (s : State) : BitVec 4 :=
  BitVec.ofBool s.hact ++ BitVec.ofBool s.pendh ++ BitVec.ofBool s.pends ++ BitVec.ofBool s.ien

/-- `HDISP` is enabled: `IEN = 1`, `PENDH = 1`, `HACT = 0` and `PENDS = 0` (46_system_ops.md R224). -/
def hdispEnabled (s : State) : Bool := s.ien && s.pendh && !s.hact && !s.pends

/-- A dispatch is enabled, so no command word may execute (60_exceptions.md R252). -/
def dispatchEnabled (s : State) : Bool := s.pends || hdispEnabled s

end Sys2Proof.Machine
end

