-- ==== Sys2Proof/Machine/Ops.lean ====
section
/-! DEFINITION. The named operations over registers, banks and ports that the meanings share: accessors of the registers
that come in pairs, the derived registers' recomputation, the response to a command word, the register read, and the entry
of and return from the housekeeping level, which are this machine's exception entry and return (60_exceptions.md R251). -/

namespace Sys2Proof.Machine

/-- The runtime registers of channel `c`. -/
def State.chan (s : State) (c : Chan) : Channel :=
  match c with
  | .ch0 => s.ch0
  | .ch1 => s.ch1

/-- Replaces the runtime registers of channel `c`. -/
def State.setChan (s : State) (c : Chan) (r : Channel) : State :=
  match c with
  | .ch0 => { s with ch0 := r }
  | .ch1 => { s with ch1 := r }

/-- `AUXLAST[a]` (10_state.md R34). -/
def State.auxlast (s : State) (a : Aux) : BitVec 7 :=
  match a with
  | .in0 => s.auxlast0
  | .in1 => s.auxlast1

/-- Writes `AUXLAST[a]`. -/
def State.setAuxlast (s : State) (a : Aux) (q : BitVec 7) : State :=
  match a with
  | .in0 => { s with auxlast0 := q }
  | .in1 => { s with auxlast1 := q }

/-- `AUXM[a]` (10_state.md R22). -/
def State.auxm (s : State) (a : Aux) : AuxMode :=
  match a with
  | .in0 => s.cfg.auxm0
  | .in1 => s.cfg.auxm1

/-- Writes `AUXM[a]`. -/
def State.setAuxm (s : State) (a : Aux) (m : AuxMode) : State :=
  match a with
  | .in0 => { s with cfg := { s.cfg with auxm0 := m } }
  | .in1 => { s with cfg := { s.cfg with auxm1 := m } }

/-- `KBDTRIG[c]` (10_state.md R35). -/
def State.kbdtrig (s : State) (c : Chan) : Bool :=
  match c with
  | .ch0 => s.kbdtrig0
  | .ch1 => s.kbdtrig1

/-- Clears `KBDTRIG[c]`. -/
def State.clearKbdtrig (s : State) (c : Chan) : State :=
  match c with
  | .ch0 => { s with kbdtrig0 := false }
  | .ch1 => { s with kbdtrig1 := false }

/-- `OVTR[a][c]` (10_state.md R28). -/
def Overlay.ovtr (o : Overlay) (a : Aux) (c : Chan) : BitVec 8 :=
  match a, c with
  | .in0, .ch0 => o.tr00
  | .in0, .ch1 => o.tr01
  | .in1, .ch0 => o.tr10
  | .in1, .ch1 => o.tr11

/-- Writes `OVTR[a][c]`. -/
def Overlay.setTr (o : Overlay) (a : Aux) (c : Chan) (v : BitVec 8) : Overlay :=
  match a, c with
  | .in0, .ch0 => { o with tr00 := v }
  | .in0, .ch1 => { o with tr01 := v }
  | .in1, .ch0 => { o with tr10 := v }
  | .in1, .ch1 => { o with tr11 := v }

/-- `OVOF[a][c]` (10_state.md R28). -/
def Overlay.ovof (o : Overlay) (a : Aux) (c : Chan) : BitVec 8 :=
  match a, c with
  | .in0, .ch0 => o.of00
  | .in0, .ch1 => o.of01
  | .in1, .ch0 => o.of10
  | .in1, .ch1 => o.of11

/-- Writes `OVOF[a][c]`. -/
def Overlay.setOf (o : Overlay) (a : Aux) (c : Chan) (v : BitVec 8) : Overlay :=
  match a, c with
  | .in0, .ch0 => { o with of00 := v }
  | .in0, .ch1 => { o with of01 := v }
  | .in1, .ch0 => { o with of10 := v }
  | .in1, .ch1 => { o with of11 := v }

/-- Clears `OVTR[a][*]` and `OVOF[a][*]`, the overlay registers that belong to input `a` alone (43_aux_processor.md R192). -/
def Overlay.clearInput (o : Overlay) (a : Aux) : Overlay :=
  (((o.setTr a .ch0 0).setTr a .ch1 0).setOf a .ch0 0).setOf a .ch1 0

/-- Recomputes `RSCALE` from its three inputs (10_state.md R26). -/
def recomputeScale (s : State) : State := { s with rscale := rot s.cfg.scale s.cfg.brot s.ov.arot }

/-- Recomputes `GATELEN` from its three inputs (10_state.md R27, 44_gate_length.md R202). -/
def recomputeGate (s : State) : State :=
  { s with gatelen := BitVec.ofInt 16 (gateLen s.params s.cfg.gli.toNat s.ov.gi.toInt s.ov.gr.toNat) }

/-- Writes `SCALE` masked with `0xFFF0`, as every write of it is (10_state.md R25), and recomputes `RSCALE` (R26). -/
def setScale (v : BitVec 16) (s : State) : State :=
  recomputeScale { s with cfg := { s.cfg with scale := v &&& 0xFFF0 } }

/-- `RecallBank(b)` (40_scale_model.md R104). -/
def recallBank (b : Fin 12) (s : State) : State :=
  setScale (s.bank.bankRead b) { s with cfg := { s.cfg with brot := 0 } }

/-- Takes input `a`'s overlay contributions back to neutral on leaving its current mode (43_aux_processor.md R192): its own
transpose and offset registers always, a shared register only if `a`'s current mode is the one that contributes to it. -/
def releaseAux (a : Aux) (s : State) : State :=
  let o := s.ov.clearInput a
  match s.auxm a with
  | .rotate => { s with ov := { o with arot := 0 } }
  | .gateLength => { s with ov := { o with gi := 0, gr := 0 } }
  | .transpose | .transpose1 | .offset | .offset1 | .scaleRecall | .off => { s with ov := o }

/-- The response `OK` with read data (30_encoding.md R88); every other output of this operation is not driven. -/
def answer (data : BitVec 16) (s : State) : State := { s with ports := { Ports.idle with rsp := some ⟨0, data⟩ } }

/-- `refuse(code)`: no register changes, nothing is driven but the response, whose data is 0 (60_exceptions.md R243). -/
def refuseWith (code : BitVec 2) (s : State) : State := { s with ports := { Ports.idle with rsp := some ⟨code, 0⟩ } }

/-- The refusal of a word that does not decode (30_encoding.md R86, R87). -/
def refusalOf : Reject → Refusal
  | .illegal => .illegal
  | .operand => .operand

/-- The response code of a refusal (30_encoding.md R88); none for an operation that has no meaning yet. -/
def refusalCode : Refusal → Option (BitVec 2)
  | .illegal => some 1
  | .operand => some 2
  | .level => some 3
  | _ => none

/-- `HDISP`, the entry of the housekeeping level (46_system_ops.md R224): the tick is taken, re-entry is masked, the save
timer counts. Nothing is saved (60_exceptions.md R251). It is no command word, so it gives no response. -/
def enterHousekeeping (s : State) : State :=
  { s with
    pendh := false
    hact := true
    savetmr := if s.savetmr = 0 then 0 else s.savetmr - 1
    ports := Ports.idle }

/-- The return from the housekeeping level: it restores nothing else (46_system_ops.md R225). -/
def leaveHousekeeping (s : State) : State := { s with hact := false }

/-- A reset of a running block (70_reset_and_hazards.md R270, 10_state.md R49): every register takes the value the first
reset gives it; the bank memory is not reset, being persistent (20_memory.md R62). The parameters, the level `storage_busy`
and the environment's stream are not the block's to reset (entry 17 of the log). -/
def laterReset (s : State) : State :=
  { State.resetWith s.params with bank := s.bank, storageBusy := s.storageBusy, input := s.input }

/-- An 8-bit signed register read as 16 bits (10_state.md R21). -/
def readSigned (v : BitVec 8) : BitVec 16 := v.signExtend 16

/-- A narrower unsigned register read as 16 bits (10_state.md R21). -/
def readUnsigned {w : Nat} (v : BitVec w) : BitVec 16 := v.zeroExtend 16

/-- A one-bit register read as 16 bits. -/
def readFlag (b : Bool) : BitVec 16 := readUnsigned (BitVec.ofBool b)

/-- `BANKOCC`: bit `b` is 1 if and only if bank `b` is not empty once masked (20_memory.md R64). -/
def bankOcc (m : Memory) : BitVec 12 :=
  BitVec.ofFnLE (fun b : Fin 12 => !(emptyScale (m.bankRead b)))

/-- The register at offset 0 to 7 of a channel's block (10_state.md R30). -/
def readChannel (r : Channel) (off : Nat) : BitVec 16 :=
  match off with
  | 0 => readUnsigned r.out
  | 1 => readUnsigned r.lgn
  | 2 => r.gph
  | 3 => readUnsigned (chanModeBits r.mode)
  | 4 => r.tcnt
  | 5 => readUnsigned r.tdly
  | 6 => readFlag r.gate
  | 7 => readFlag r.elatch
  | _ => 0

/-- The Configuration register at 0x00 to 0x0B (10_state.md R22). -/
def readConfig (c : Configuration) (addr : Nat) : BitVec 16 :=
  match addr with
  | 0x00 => c.scale
  | 0x01 => readUnsigned c.gli
  | 0x02 => readUnsigned c.brot
  | 0x03 => readSigned c.trg
  | 0x04 => readSigned c.trc
  | 0x05 => readSigned c.ofg
  | 0x06 => readSigned c.ofc
  | 0x07 => readFlag c.legato
  | 0x08 => readUnsigned (qmodeBits c.qmode)
  | 0x09 => readUnsigned c.tds
  | 0x0A => readUnsigned (auxModeBits c.auxm0)
  | 0x0B => readUnsigned (auxModeBits c.auxm1)
  | _ => 0

/-- The overlay register at 0x18 to 0x22 (10_state.md R28). -/
def readOverlay (o : Overlay) (addr : Nat) : BitVec 16 :=
  match addr with
  | 0x18 => readUnsigned o.arot
  | 0x19 => readSigned o.tr00
  | 0x1A => readSigned o.tr01
  | 0x1B => readSigned o.tr10
  | 0x1C => readSigned o.tr11
  | 0x1D => readSigned o.of00
  | 0x1E => readSigned o.of01
  | 0x1F => readSigned o.of10
  | 0x20 => readSigned o.of11
  | 0x21 => readSigned o.gi
  | 0x22 => readUnsigned o.gr
  | _ => 0

/-- The remaining registers and the view `BANKOCC` (10_state.md R26, R27, R34, R35, R37, R38, R44, R45; 20_memory.md R64);
`OVERRUN` is not readable (10_state.md R46). -/
def readOther (s : State) (addr : Nat) : BitVec 16 :=
  match addr with
  | 0x10 => s.rscale
  | 0x11 => s.gatelen
  | 0x40 => readUnsigned s.auxlast0
  | 0x41 => readUnsigned s.auxlast1
  | 0x48 => readFlag s.kbdact
  | 0x49 => readUnsigned s.kbdnote
  | 0x4A => readUnsigned (BitVec.ofBool s.kbdtrig1 ++ BitVec.ofBool s.kbdtrig0)
  | 0x50 => readUnsigned s.nextch
  | 0x51 => readUnsigned (istat s)
  | 0x52 => s.savetmr
  | 0x53 => readFlag s.savepend
  | 0x54 => readUnsigned s.sdata
  | 0x60 => readUnsigned (bankOcc s.bank)
  | _ => 0

/-- `RegRead(addr)` (46_system_ops.md R226): the register or view at an address; an unmapped address reads 0
(10_state.md R21). -/
def regRead (s : State) (addr : BitVec 8) : BitVec 16 :=
  let n := addr.toNat
  if n < 0x10 then readConfig s.cfg n
  else if 0x18 ≤ n ∧ n ≤ 0x22 then readOverlay s.ov n
  else if 0x30 ≤ n ∧ n < 0x38 then readChannel s.ch0 (n - 0x30)
  else if 0x38 ≤ n ∧ n < 0x40 then readChannel s.ch1 (n - 0x38)
  else if h : 0x70 ≤ n ∧ n < 0x7C then s.bank.bankRead ⟨n - 0x70, by omega⟩
  else readOther s n

/-- The port `pitch[c]` always equals `OUT[c]` (10_state.md R31). -/
def State.pitchPort (s : State) (c : Chan) : BitVec 7 := (s.chan c).out

/-- The port `gate[c]` always equals `GATE[c]` (10_state.md R31). -/
def State.gatePort (s : State) (c : Chan) : Bool := (s.chan c).gate

/-- The port `mux_sel` is driven by `NEXTCH` (10_state.md R44). -/
def State.muxSel (s : State) : BitVec 2 := s.nextch

/-- The port `rscale` (10_state.md R47). -/
def State.rscalePort (s : State) : BitVec 16 := s.rscale

end Sys2Proof.Machine
end

