-- ==== Sys2Proof/Machine/Quantize.lean ====
section
/-! DEFINITION. The Quantization Engine (41_quantization_engine.md): pure functions from an integer sample in eighths of a
semitone to a note value, total on all integers (R120). -/

namespace Sys2Proof.Machine

/-- `RoundStep(s)`: the nearest semitone, a tie going up, and the remainder of the biased sample (41_quantization_engine.md
R121). -/
def roundStep (s : Int) : Option (Int × Int) :=
  let t := s + 4
  if t < 0 then none else some (t / 8, t % 8)

/-- `QSemi(s)` (41_quantization_engine.md R122). -/
def qSemi (s : Int) : NoteValue :=
  match roundStep s with
  | none => none
  | some (n, _) => range n

/-- The search of `QNearest` around a disabled semitone `n`, over the distances still to try: at each, the lower and the
higher neighbour, `up` deciding a tie (41_quantization_engine.md R123). -/
def searchNearest (rscale : BitVec 16) (n : Int) (up : Bool) : List Nat → NoteValue
  | [] => none
  | d :: ds =>
    match en rscale (n - d), en rscale (n + d) with
    | true, true => range (if up then n + d else n - d)
    | true, false => range (n - d)
    | false, true => range (n + d)
    | false, false => searchNearest rscale n up ds

/-- Whether a tie goes to the higher note: the remainder of the biased sample, or under the switch `TIE_REM_BIASED = false`
that of the sample itself, is at least half a semitone (R123, 92_eei_decisions.md D9). -/
def tieUp (biased : Bool) (s rem : Int) : Bool := decide (4 ≤ if biased then rem else s % 8)

/-- `QNearest(s)` (41_quantization_engine.md R123). -/
def qNearest (biased : Bool) (rscale : BitVec 16) (s : Int) : NoteValue :=
  if emptyScale rscale then none
  else
    match roundStep s with
    | none => none
    | some (n, rem) => if en rscale n then range n else searchNearest rscale n (tieUp biased s rem) [1, 2, 3, 4, 5, 6]

/-- `QSkip(s)` (41_quantization_engine.md R124). -/
def qSkip (rscale : BitVec 16) (s : Int) : NoteValue :=
  if emptyScale rscale then none
  else
    match roundStep s with
    | none => none
    | some (n, _) => if en rscale n then range n else none

/-- The enabled semitones 0 to 11 in ascending order (41_quantization_engine.md R125). -/
def enabledSemitones (rscale : BitVec 16) : List Nat := (List.range 12).filter (fun k => en rscale k)

/-- `QEqual(s)` (41_quantization_engine.md R125). -/
def qEqual (rscale : BitVec 16) (s : Int) : NoteValue :=
  if emptyScale rscale then none
  else if s < 0 then none
  else
    let notes := enabledSemitones rscale
    let oct := s / 96
    let pos := s % 96
    let rank := (pos * notes.length) / 96
    match notes[rank.toNat]? with
    | none => none
    | some k => range (12 * oct + k)

/-- `Quantize(s)`: the configured algorithm (41_quantization_engine.md R127). -/
def quantize (biased : Bool) (mode : QMode) (rscale : BitVec 16) (s : Int) : NoteValue :=
  match mode with
  | .nearest => qNearest biased rscale s
  | .skip => qSkip rscale s
  | .equal => qEqual rscale s

/-- The hysteresis both processors use: a sample above the last value is lowered, one below it raised, an equal one kept
(42_channel_processor.md R148, 43_aux_processor.md R181). `last` is the last value in semitones. -/
def hysteresis (up dn : Nat) (last : Nat) (raw : Int) : Int :=
  if 8 * (last : Int) < raw then raw - up
  else if raw < 8 * (last : Int) then raw + dn
  else raw

end Sys2Proof.Machine
end

