-- ==== Sys2Proof/Machine/Auxiliary.lean ====
section
/-! DEFINITION. The Auxiliary-Voltage Processor (43_aux_processor.md): the invocation `AUXPROC` with its effects, and the
operation `SETAUXM`. -/

namespace Sys2Proof.Machine

/-- `AuxHyst(a, raw)` (43_aux_processor.md R181). -/
def auxHyst (p : Params) (last : BitVec 7) (raw : BitVec 10) : Int :=
  hysteresis p.auxHystUp p.auxHystDn last.toNat raw.toNat

/-- `GateOverlay(raw)` (43_aux_processor.md R185): the raw sample as a signed index and a remainder 0 to 39. -/
def gateOverlay (raw : BitVec 10) (s : State) : State :=
  let d : Int := (raw.toNat : Int) - s.params.gateZero
  recomputeGate { s with ov := { s.ov with gi := BitVec.ofInt 8 (d / 40), gr := BitVec.ofInt 6 (d % 40) } }

/-- The effect of a mode on a change of the quantized value, `v` being the centred value (43_aux_processor.md R182, R183,
R186 to R190). -/
def auxEffect (a : Aux) (m : AuxMode) (v : Int) (s : State) : State :=
  let b := BitVec.ofInt 8 v
  match m with
  | .rotate => recomputeScale { s with ov := { s.ov with arot := BitVec.ofNat 4 (mod12 v).val } }
  | .transpose => { s with ov := (s.ov.setTr a .ch0 b).setTr a .ch1 b }
  | .transpose1 => { s with ov := s.ov.setTr a s.params.oneCh b }
  | .offset => { s with ov := (s.ov.setOf a .ch0 b).setOf a .ch1 b }
  | .offset1 => { s with ov := s.ov.setOf a s.params.oneCh b }
  | .gateLength => s
  | .scaleRecall => recallBank (mod12 v) s
  | .off => s

/-- The part of an invocation that fires only when the quantized value changes (43_aux_processor.md R183, R184). -/
def auxChange (a : Aux) (raw : BitVec 10) (s : State) : State :=
  match qSemi (auxHyst s.params (s.auxlast a) raw) with
  | none => s
  | some q =>
    if q = s.auxlast a then s
    else auxEffect a (s.auxm a) ((q.toNat : Int) - s.params.auxCenter) (s.setAuxlast a q)

/-- `AUXPROC(a, raw)` (43_aux_processor.md R180, R183): in gate-length mode the overlay is mapped first, in every
invocation. -/
def auxProc (a : Aux) (raw : BitVec 10) (s : State) : State :=
  auxChange a raw (if s.auxm a = .gateLength then gateOverlay raw s else s)

/-- `SETAUXM a, m` (43_aux_processor.md R192). -/
def execSetauxm (a : Aux) (m : BitVec 8) (s : State) : Host.Outcome State Fault Refusal :=
  match auxModeOf m with
  | none => .refused .operand
  | some mode => .next (answer 0 (markEdit (recomputeGate (recomputeScale ((releaseAux a s).setAuxm a mode)))))

end Sys2Proof.Machine
end

