-- ==== Sys2Proof/Machine/Channel.lean ====
section
/-! DEFINITION. The Channel Processor (42_channel_processor.md): the invocation `CHANPROC` with its sub-steps, and the
operations that set its configuration, deliver a trigger edge, and drive the manual override. -/

namespace Sys2Proof.Machine

/-- `GateStep(c)` (42_channel_processor.md R145): `GPH < 0` settles, `GPH > 0` times the gate, `GPH = 0` is idle. -/
def gateStep (gatelen : BitVec 16) (r : Channel) : Channel :=
  if r.gph.toInt < 0 then
    let gph := r.gph + 1
    if gph = 0 then
      let on := decide (r.out.zeroExtend 8 ≠ r.lgn)
      let gate := r.gate || on
      { r with
        gate := gate
        lgn := if on then r.out.zeroExtend 8 else r.lgn
        gph := if gate then 1 else 0 }
    else { r with gph := gph }
  else if 0 < r.gph.toInt then
    if (gatelen.toNat : Int) ≤ r.gph.toInt then { r with gate := false, gph := 0 }
    else { r with gph := r.gph + 1 }
  else r

/-- `TrigCountdown(c)`: counts a pending delay down and says whether it fires in this invocation
(42_channel_processor.md R146). -/
def trigCountdown (r : Channel) : Channel × Bool :=
  if r.tdly = 0 then (r, false) else ({ r with tdly := r.tdly - 1 }, decide (r.tdly = 1))

/-- `TrigInput(c, lvl)`: mode, edge detection and debounce (42_channel_processor.md R147). -/
def trigInput (p : Params) (tds : BitVec 4) (lvl : Bool) (r : Channel) : Channel :=
  if lvl || r.elatch then
    { r with
      elatch := false
      mode := .triggered
      tdly := if p.trigDebounceMin ≤ r.tcnt.toNat then BitVec.ofNat 8 (1 + p.trigDelayK * tds.toNat) else r.tdly
      tcnt := 0 }
  else
    let tcnt := if r.tcnt.toNat < p.trigTimeout then r.tcnt + 1 else r.tcnt
    { r with
      elatch := false
      tcnt := tcnt
      mode := if p.trigTimeout ≤ tcnt.toNat then .freeRunning else r.mode }

/-- `Hyst(c, raw)` (42_channel_processor.md R148). -/
def hyst (p : Params) (r : Channel) (raw : BitVec 10) : Int := hysteresis p.hystUp p.hystDn r.out.toNat raw.toNat

/-- The channel-specific value counts for channel `ONE_CH` only (42_channel_processor.md R150). -/
def oneChOnly (p : Params) (c : Chan) (v : BitVec 8) : Int := if c = p.oneCh then v.toInt else 0

/-- `OfSum(c)`, the offset in semitones (42_channel_processor.md R150). -/
def ofSum (s : State) (c : Chan) : Int :=
  s.cfg.ofg.toInt + (s.ov.ovof .in0 c).toInt + (s.ov.ovof .in1 c).toInt + oneChOnly s.params c s.cfg.ofc

/-- `TrSum(c)`, the transpose in semitones (42_channel_processor.md R150). -/
def trSum (s : State) (c : Chan) : Int :=
  s.cfg.trg.toInt + (s.ov.ovtr .in0 c).toInt + (s.ov.ovtr .in1 c).toInt + oneChOnly s.params c s.cfg.trc

/-- The candidate of the normal path: offset before quantization, transpose after (42_channel_processor.md R149). -/
def pitchCandidate (s : State) (c : Chan) (raw : BitVec 10) : NoteValue :=
  let sample := hyst s.params (s.chan c) raw + 8 * ofSum s c
  match quantize s.params.tieRemBiased s.cfg.qmode s.rscale sample with
  | none => none
  | some q => range (q.toNat + trSum s c)

/-- What `Candidate` answers: the candidate note and the trigger condition (42_channel_processor.md R149). -/
structure Candidate where
  note : NoteValue
  trig : Bool
deriving DecidableEq, Repr

/-- `Candidate(c, raw, fire)` without its one write: in manual override the keyboard note with its flag, otherwise the
normal path, triggered by a difference in free-running mode and by `fire` in triggered mode (42_channel_processor.md
R149). -/
def candidateOf (s : State) (c : Chan) (raw : BitVec 10) (fire : Bool) : Candidate :=
  if s.kbdact then { note := range s.kbdnote.toNat, trig := s.kbdtrig c }
  else
    let cand := pitchCandidate s c raw
    { note := cand
      trig := match (s.chan c).mode with
        | .freeRunning => decide (cand ≠ some (s.chan c).out)
        | .triggered => fire }

/-- The one write of `Candidate`: in manual override the channel's flag is spent (42_channel_processor.md R149). -/
def spendKbdtrig (s : State) (c : Chan) : State := if s.kbdact then s.clearKbdtrig c else s

/-- What `Accept` does to the channel (42_channel_processor.md R152): legato suppresses the clearing of the gate, and under
the switch `LEGATO_ARMS = false` (92_eei_decisions.md D15) the arming too. -/
def acceptNote (p : Params) (legato : Bool) (n : Note) (r : Channel) : Channel :=
  { r with
    out := n
    gate := if legato then r.gate else false
    gph := if legato && !p.legatoArms then r.gph else BitVec.ofInt 16 (-(p.settle : Int)) }

/-- Drives the strobe `pitch_wr[c]` (10_state.md R31). -/
def strobePitch (c : Chan) (s : State) : State :=
  match c with
  | .ch0 => { s with ports := { s.ports with pitchWr0 := true } }
  | .ch1 => { s with ports := { s.ports with pitchWr1 := true } }

/-- `Accept(c, n)` (42_channel_processor.md R152). -/
def accept (c : Chan) (n : Note) (s : State) : State :=
  strobePitch c (s.setChan c (acceptNote s.params s.cfg.legato n (s.chan c)))

/-- The acceptance rule: accepted if and only if `trig` holds and the candidate is a note (42_channel_processor.md R151). -/
def acceptIf (c : Chan) (k : Candidate) (s : State) : State :=
  match k.note with
  | none => s
  | some n => if k.trig then accept c n s else s

/-- The part of an invocation before the candidate: `GateStep`, `TrigCountdown`, `TrigInput`, with what `TrigCountdown`
reports (42_channel_processor.md R141). -/
def channelInput (p : Params) (gatelen : BitVec 16) (tds : BitVec 4) (lvl : Bool) (r : Channel) : Channel × Bool :=
  let (r1, fire) := trigCountdown (gateStep gatelen r)
  (trigInput p tds lvl r1, fire)

/-- `CHANPROC(c, raw, lvl)` (42_channel_processor.md R140, R141). -/
def chanProc (c : Chan) (raw : BitVec 10) (lvl : Bool) (s : State) : State :=
  let (r, fire) := channelInput s.params s.gatelen s.cfg.tds lvl (s.chan c)
  let s1 := s.setChan c r
  acceptIf c (candidateOf s1 c raw fire) (spendKbdtrig s1 c)

/-- `SETTRG v` (42_channel_processor.md R155). -/
def execSettrg (v : BitVec 8) (s : State) : Host.Outcome State Fault Refusal :=
  .next (answer 0 (markEdit { s with cfg := { s.cfg with trg := v } }))

/-- `SETTRC v` (42_channel_processor.md R156). -/
def execSettrc (v : BitVec 8) (s : State) : Host.Outcome State Fault Refusal :=
  .next (answer 0 (markEdit { s with cfg := { s.cfg with trc := v } }))

/-- `SETOFG v` (42_channel_processor.md R157). -/
def execSetofg (v : BitVec 8) (s : State) : Host.Outcome State Fault Refusal :=
  .next (answer 0 (markEdit { s with cfg := { s.cfg with ofg := v } }))

/-- `SETOFC v` (42_channel_processor.md R158). -/
def execSetofc (v : BitVec 8) (s : State) : Host.Outcome State Fault Refusal :=
  .next (answer 0 (markEdit { s with cfg := { s.cfg with ofc := v } }))

/-- `SETLEG f` (42_channel_processor.md R159). -/
def execSetleg (f : Bool) (s : State) : Host.Outcome State Fault Refusal :=
  .next (answer 0 (markEdit { s with cfg := { s.cfg with legato := f } }))

/-- `SETQM m` (42_channel_processor.md R160). -/
def execSetqm (m : BitVec 2) (s : State) : Host.Outcome State Fault Refusal :=
  match qmodeOf m with
  | none => .refused .operand
  | some q => .next (answer 0 (markEdit { s with cfg := { s.cfg with qmode := q } }))

/-- `SETTDS d` (42_channel_processor.md R161): a delay already pending keeps its count. -/
def execSettds (d : BitVec 4) (s : State) : Host.Outcome State Fault Refusal :=
  match index12 d with
  | none => .refused .operand
  | some _ => .next (answer 0 (markEdit { s with cfg := { s.cfg with tds := d } }))

/-- `TRIGEDGE c` (42_channel_processor.md R162). -/
def execTrigedge (c : Chan) (s : State) : Host.Outcome State Fault Refusal :=
  .next (answer 0 (s.setChan c { s.chan c with elatch := true }))

/-- `KBDON` (42_channel_processor.md R163). -/
def execKbdon (s : State) : Host.Outcome State Fault Refusal :=
  .next (answer 0 { s with kbdact := true })

/-- `KBDOFF` (42_channel_processor.md R164). -/
def execKbdoff (s : State) : Host.Outcome State Fault Refusal :=
  .next (answer 0 { s with kbdact := false, kbdtrig0 := false, kbdtrig1 := false })

/-- `KBDNOTE o, s` (42_channel_processor.md R165). -/
def execKbdnote (o n : BitVec 4) (s : State) : Host.Outcome State Fault Refusal :=
  match index12 n with
  | none => .refused .operand
  | some _ => .next (answer 0 { s with kbdnote := kbdNoteOf o n, kbdtrig0 := true, kbdtrig1 := true })

end Sys2Proof.Machine
end

