-- ==== Sys2Proof/Machine/GateLength.lean ====
section
/-! DEFINITION. The Gate-Length Calculator's operation `SETGLI` (44_gate_length.md). -/

namespace Sys2Proof.Machine

/-- `SETGLI i` (44_gate_length.md R203). -/
def execSetgli (i : BitVec 4) (s : State) : Host.Outcome State Fault Refusal :=
  match index12 i with
  | none => .refused .operand
  | some _ => .next (answer 0 (markEdit (recomputeGate { s with cfg := { s.cfg with gli := i } })))

end Sys2Proof.Machine
end

