-- ==== Sys2Proof/Machine/Scale.lean ====
section
/-! DEFINITION. The Scale Model's operations (40_scale_model.md): `TOGGLE`, `RECALL`, `SAVEBANK`, `SETSCALE`, `SETROT`. -/

namespace Sys2Proof.Machine

/-- `TOGGLE k` (40_scale_model.md R105). -/
def execToggle (k : BitVec 4) (s : State) : Host.Outcome State Fault Refusal :=
  match index12 k with
  | none => .refused .operand
  | some i => .next (answer 0 (markEdit (setScale (s.cfg.scale ^^^ (1#16 <<< (4 + i.val))) s)))

/-- `RECALL b` (40_scale_model.md R106). -/
def execRecall (b : BitVec 4) (s : State) : Host.Outcome State Fault Refusal :=
  match index12 b with
  | none => .refused .operand
  | some i => .next (answer 0 (markEdit (recallBank i s)))

/-- `BankWrite(b, v)` with the strobe, address and data it drives on the bank memory's port (20_memory.md R62,
10_state.md R47). -/
def saveBank (b : Fin 12) (v : BitVec 16) (s : State) : State :=
  { s with bank := s.bank.bankWrite b v, ports := { s.ports with bankWr := some (b, v) } }

/-- `SAVEBANK b` (40_scale_model.md R107): it stores the unrotated `SCALE` and is not an edit. -/
def execSavebank (b : BitVec 4) (s : State) : Host.Outcome State Fault Refusal :=
  match index12 b with
  | none => .refused .operand
  | some i => .next (saveBank i s.cfg.scale (answer 0 s))

/-- `SETSCALE v` (40_scale_model.md R108). -/
def execSetscale (v : BitVec 16) (s : State) : Host.Outcome State Fault Refusal :=
  .next (answer 0 (markEdit (setScale v s)))

/-- `SETROT r` (40_scale_model.md R109). -/
def execSetrot (r : BitVec 4) (s : State) : Host.Outcome State Fault Refusal :=
  match index12 r with
  | none => .refused .operand
  | some _ => .next (answer 0 (markEdit (recomputeScale { s with cfg := { s.cfg with brot := r } })))

end Sys2Proof.Machine
end

