-- ==== Sys2Proof/Machine/System.lean ====
section
/-! DEFINITION. The system operations (46_system_ops.md) and the two events (45_sampling_sequencer.md R210,
46_system_ops.md R223). -/

namespace Sys2Proof.Machine

/-- `NOP` (46_system_ops.md R220). -/
def execNop (s : State) : Host.Outcome State Fault Refusal := .next (answer 0 s)

/-- `START` (46_system_ops.md R221). -/
def execStart (s : State) : Host.Outcome State Fault Refusal := .next (answer 0 { s with ien := true })

/-- `HRET`: refused where there is no handler to return from (46_system_ops.md R225). -/
def execHret (s : State) : Host.Outcome State Fault Refusal :=
  if s.hact then .next (answer 0 (leaveHousekeeping s)) else .refused .level

/-- The condition under which `COMMIT` saves (46_system_ops.md R229). -/
def commitReady (s : State) : Bool := s.savepend && decide (s.savetmr = 0) && !s.storageBusy

/-- `COMMIT`: background level only; saves the Configuration when the request is due and storage is free, otherwise does
nothing and answers `OK` (46_system_ops.md R229). -/
def execCommit (s : State) : Host.Outcome State Fault Refusal :=
  if s.hact then .refused .level
  else if commitReady s then
    .next { s with savepend := false, ports := { Ports.idle with rsp := some ⟨0, 0⟩, cfgSave := some s.cfg } }
  else .next (answer 0 s)

/-- `CFGDEF` (46_system_ops.md R228): loads `DEFAULTS`, takes both inputs' overlay contributions back as `SETAUXM` does,
and requests the commit at once. -/
def execCfgdef (s : State) : Host.Outcome State Fault Refusal :=
  let s1 := releaseAux .in1 (releaseAux .in0 s)
  let s2 := recomputeGate (recomputeScale { s1 with cfg := s1.params.defaults })
  .next (answer 0 { s2 with savetmr := 0, savepend := true })

/-- `RDREG addr` (46_system_ops.md R226). -/
def execRdreg (addr : BitVec 8) (s : State) : Host.Outcome State Fault Refusal := .next (answer (regRead s addr) s)

/-- `ADCDONE raw, t0, t1` (45_sampling_sequencer.md R210). An event has no response (30_encoding.md R88). -/
def execAdcdone (t1 t0 : Bool) (raw : BitVec 10) (s : State) : Host.Outcome State Fault Refusal :=
  .next (latchSample (sampleWord t1 t0 raw) s)

/-- `HKTICK` (46_system_ops.md R223). -/
def execHktick (s : State) : Host.Outcome State Fault Refusal := .next (latchTick s)

end Sys2Proof.Machine
end

