-- ==== Sys2Proof/Machine/Dispatch.lean ====
section
/-! DEFINITION. One arm per instruction, each a direct call of its meaning. -/

namespace Sys2Proof.Machine

def exec (i : Instr) (s : State) : Host.Outcome State Fault Refusal :=
  match i with
  | .nop => Sys2Proof.Machine.execNop s
  | .toggle k => Sys2Proof.Machine.execToggle k s
  | .recall b => Sys2Proof.Machine.execRecall b s
  | .savebank b => Sys2Proof.Machine.execSavebank b s
  | .setscale v => Sys2Proof.Machine.execSetscale v s
  | .setgli g => Sys2Proof.Machine.execSetgli g s
  | .setrot r => Sys2Proof.Machine.execSetrot r s
  | .settrg v => Sys2Proof.Machine.execSettrg v s
  | .settrc v => Sys2Proof.Machine.execSettrc v s
  | .setofg v => Sys2Proof.Machine.execSetofg v s
  | .setofc v => Sys2Proof.Machine.execSetofc v s
  | .setleg f => Sys2Proof.Machine.execSetleg f s
  | .setqm m => Sys2Proof.Machine.execSetqm m s
  | .settds d => Sys2Proof.Machine.execSettds d s
  | .setauxm a m => Sys2Proof.Machine.execSetauxm a m s
  | .kbdoff => Sys2Proof.Machine.execKbdoff s
  | .kbdon => Sys2Proof.Machine.execKbdon s
  | .kbdnote o n => Sys2Proof.Machine.execKbdnote o n s
  | .trigedge c => Sys2Proof.Machine.execTrigedge c s
  | .hret => Sys2Proof.Machine.execHret s
  | .commit => Sys2Proof.Machine.execCommit s
  | .start => Sys2Proof.Machine.execStart s
  | .cfgdef => Sys2Proof.Machine.execCfgdef s
  | .rdreg addr => Sys2Proof.Machine.execRdreg addr s
  | .adcdone t1 t0 raw => Sys2Proof.Machine.execAdcdone t1 t0 raw s
  | .hktick => Sys2Proof.Machine.execHktick s

end Sys2Proof.Machine
end

