-- ==== Sys2Proof/Machine/Sequencer.lean ====
section
/-! DEFINITION. The sampling sequencer (45_sampling_sequencer.md): the dispatch `SDISP` and the round robin. -/

namespace Sys2Proof.Machine

/-- What one dispatch invokes: a channel processor or an auxiliary processor (45_sampling_sequencer.md R212). -/
inductive Served where
  | channel (c : Chan)
  | auxiliary (a : Aux)
deriving DecidableEq, Repr

/-- The input whose conversion has completed: number `NEXTCH xor 2`, numbered 0, 1 = the channels and 2, 3 = the auxiliary
inputs (45_sampling_sequencer.md R211, R212). -/
def served (nextch : BitVec 2) : Served :=
  match (nextch ^^^ 2#2).toNat with
  | 0 => .channel .ch0
  | 1 => .channel .ch1
  | 2 => .auxiliary .in0
  | _ => .auxiliary .in1

/-- The invocation of the served input with the sample word (45_sampling_sequencer.md R211). -/
def invoke (i : Served) (a : BitVec 12) (s : State) : State :=
  match i with
  | .channel c => chanProc c (sampleRaw a) (sampleLevel c a) s
  | .auxiliary x => auxProc x (sampleRaw a) s

/-- `SDISP`, the whole handler of the sampling level: entry, one invocation and return in one transition
(45_sampling_sequencer.md R211, 60_exceptions.md R251). It gives no response. -/
def serveSample (s : State) : State :=
  invoke (served s.nextch) s.sdata { s with pends := false, nextch := s.nextch + 1, ports := Ports.idle }

end Sys2Proof.Machine
end

