-- ==== Sys2Proof/Machine/Scheduler.lean ====
section
/-! DEFINITION. The Scheduler (60_exceptions.md R252): which step comes next, and how a word at a port is run. -/

namespace Sys2Proof.Machine

/-- What happens at one point of a run (60_exceptions.md R252, entry 3 of the log). -/
inductive Action where
  /-- The environment moves the level `storage_busy`. -/
  | storage (busy : Bool)
  /-- The block is reset (entry 17 of the log). -/
  | reset
  /-- An event arrives; it is applied at the point where it arrives. -/
  | event (w : PortWord)
  /-- The dispatch `SDISP`. -/
  | sdisp
  /-- The dispatch `HDISP`. -/
  | hdisp
  /-- The next command word is taken. -/
  | command (w : BitVec 24)
  /-- Nothing is enabled and nothing is presented. -/
  | wait
deriving DecidableEq, Repr

/-- The block's own choice when no event arrives: `SDISP`, else `HDISP`, else what the command stream offers
(60_exceptions.md R252). -/
def ownAction (s : State) (otherwise : Action) : Action :=
  if s.pends then .sdisp else if hdispEnabled s then .hdisp else otherwise

/-- The next action: an event, or a reset, is applied where it arrives, a command word waits for both dispatches (60_exceptions.md
R252). -/
def nextAction (s : State) : Action :=
  match s.input with
  | .storage b :: _ => .storage b
  | .reset :: _ => .reset
  | .adc a :: _ => .event (.adc a)
  | .tick :: _ => .event .tick
  | .cmd w :: _ => ownAction s (.command w)
  | .quiet :: _ => ownAction s .wait
  | [] => ownAction s .wait

/-- The environment's first item is used up. -/
def State.consume (s : State) : State := { s with input := s.input.tail }

/-- A quiet point is used up by the block's own step; a command word is held until it is taken (60_exceptions.md R252). -/
def State.consumeQuiet (s : State) : State :=
  match s.input with
  | .quiet :: rest => { s with input := rest }
  | _ => s

/-- Runs the word at a port. A word that does not decode, or whose meaning refuses it, is a refusal of the model, as the spec
asks (30_encoding.md R87, 60_exceptions.md R243, 93_implementation_defined.md I7). -/
def runWord (w : PortWord) (s : State) : Host.Outcome State Fault Refusal :=
  match decode w with
  | .error e => .refused (refusalOf e)
  | .ok i => exec i s

/-- What a refusal leaves in the block, for a run that goes on past it: the word is used up, its response is on the port, and
nothing else changes; the next word is unaffected (60_exceptions.md R243, 30_encoding.md R88; entry 5 of the log). -/
def afterRefusal (r : Refusal) (s : State) : State :=
  match refusalCode r with
  | some code => refuseWith code s.consume
  | none => s

/-- Performs an action. -/
def perform (a : Action) (s : State) : Host.Outcome State Fault Refusal :=
  match a with
  | .storage b => .next { s.consume with storageBusy := b }
  | .reset => .next (laterReset s.consume)
  | .event w => runWord w s.consume
  | .sdisp => .next (serveSample s.consumeQuiet)
  | .hdisp => .next (enterHousekeeping s.consumeQuiet)
  | .command w => runWord (.cmd w) s.consume
  | .wait => .next s.consumeQuiet

/-- The item of the environment that presents a word at its port. -/
def inputOf : PortWord → Input
  | .cmd w => .cmd w
  | .adc a => .adc a
  | .tick => .tick

/-- Presents a word next. A command word is taken only when no dispatch is enabled (60_exceptions.md R252), so for one the
pending bits that enable a dispatch are cleared. -/
def present (p : PortWord) (s : State) : State :=
  let t := { s with input := inputOf p :: s.input }
  match p with
  | .cmd _ => { t with pends := false, pendh := s.pendh && s.hact }
  | .adc _ => t
  | .tick => t

end Sys2Proof.Machine
end

