-- ==== Sys2Proof/Machine/Step.lean ====
section
/-! DEFINITION. One step of the machine: one operation of the block, one event that arrives, or one move of the environment's
level (70_reset_and_hazards.md R282: one step per operation or event). -/

namespace Sys2Proof.Machine

/-- One step. -/
def step (s : State) : Host.Outcome State Fault Refusal := perform (nextAction s) s

/-- The state with the word of a table row presented at its port, so that the next step runs it (entries 3 and 13 of the
log). -/
def State.withFetchWord (s : State) (nbits w : Nat) : State :=
  match portWord nbits w with
  | some p => present p s
  | none => s

end Sys2Proof.Machine
end

