-- ==== Sys2Proof/Safety.lean ====
section
/-! DEFINITION. What a sound state and a safe run of KQCORE are, in the terms the statements use: the invariants the spec
states between two operations (10_state.md R51), a stronger invariant that every step keeps, the level of the command
stream, runs of invocations, and what a step may be blind to. -/

namespace Sys2Proof.Machine

/-- The level of the command stream (10_state.md R37, 60_exceptions.md R255). -/
inductive Level where
  | housekeeping
  | background
deriving DecidableEq, Repr

/-- `H` when `HACT = 1`, `B` when `HACT = 0` (10_state.md R37). -/
def commandLevel (s : State) : Level := if s.hact then .housekeeping else .background

/-- The output ports after a command word that drove nothing but its response. -/
def Ports.answered (code : BitVec 2) (data : BitVec 16) : Ports :=
  { rsp := some ⟨code, data⟩, pitchWr0 := false, pitchWr1 := false, cfgSave := none, bankWr := none }

/-- The environment presents no event, moves no level and does not reset at this point: the block chooses alone
(60_exceptions.md R252). -/
def NoEventNow (s : State) : Prop :=
  (∀ a rest, s.input ≠ .adc a :: rest) ∧ (∀ rest, s.input ≠ .tick :: rest) ∧ (∀ b rest, s.input ≠ .storage b :: rest) ∧
    ∀ rest, s.input ≠ .reset :: rest

/-- No overrun has happened: the premise 60_exceptions.md R247 asks a claim about a run to take. -/
def NoOverrun (s : State) : Prop := s.overrun = false

/-- The eight invariants (a) to (h) of 10_state.md R51, in the spec's order. -/
structure BetweenOperations (s : State) : Prop where
  lowBits   : s.cfg.scale.extractLsb' 0 4 = 0#4 ∧ s.rscale.extractLsb' 0 4 = 0#4
  rscale    : s.rscale = rot s.cfg.scale s.cfg.brot s.ov.arot
  gatelen   : (s.gatelen.toNat : Int) = gateLen s.params s.cfg.gli.toNat s.ov.gi.toInt s.ov.gr.toNat
  config    : s.cfg.gli.toNat ≤ 11 ∧ s.cfg.brot.toNat ≤ 11 ∧ s.cfg.tds.toNat ≤ 11 ∧
                (qmodeBits s.cfg.qmode).toNat ≤ 2 ∧
                ∀ a, (auxModeBits (s.auxm a)).toNat ≤ 6 ∨ (auxModeBits (s.auxm a)).toNat = 255
  out       : ∀ c, (s.chan c).out.toNat ≤ 127
  level     : s.hact = false → commandLevel s = .background
  gatePhase : ∀ c, -(s.params.settle : Int) ≤ (s.chan c).gph.toInt
  trigCount : ∀ c, (s.chan c).tcnt.toNat ≤ s.params.trigTimeout

/-- The value columns of a channel's registers that the widths do not give (10_state.md R30). -/
def Channel.sound (p : Params) (r : Channel) : Prop :=
  -(p.settle : Int) ≤ r.gph.toInt ∧ r.tcnt.toNat ≤ p.trigTimeout ∧ r.lgn.toNat ≤ 127

/-- The value columns of the overlay registers (10_state.md R28). -/
def Overlay.sound (o : Overlay) : Prop :=
  o.arot.toNat ≤ 11 ∧ -26 ≤ o.gi.toInt ∧ o.gi.toInt ≤ 25 ∧ o.gr.toNat ≤ 39 ∧
    ∀ a c, -127 ≤ (o.ovtr a c).toInt ∧ -127 ≤ (o.ovof a c).toInt

/-- A shared overlay register is not neutral only while some input is in the mode that contributes to it
(44_gate_length.md R202, 46_system_ops.md R228). -/
def OverlayOwned (s : State) : Prop :=
  ((∀ a, s.auxm a ≠ .rotate) → s.ov.arot = 0#4) ∧
    ((∀ a, s.auxm a ≠ .gateLength) → s.ov.gi = 0#8 ∧ s.ov.gr = 0#6)

/-- Nothing is pending or active before `START` (60_exceptions.md R254). -/
def QuietBeforeStart (s : State) : Prop := s.ien = false → s.pends = false ∧ s.pendh = false ∧ s.hact = false

/-- The invariant that every step keeps. It gives `BetweenOperations` and every further value column of 10_state.md, with
the constraints on `P` and the canonical form of the bank memory. -/
structure Inv (s : State) : Prop where
  params   : s.params.valid = true
  config   : s.cfg.legal = true
  rscale   : s.rscale = rot s.cfg.scale s.cfg.brot s.ov.arot
  gatelen  : (s.gatelen.toNat : Int) = gateLen s.params s.cfg.gli.toNat s.ov.gi.toInt s.ov.gr.toNat
  gateMax  : s.gatelen.toNat ≤ 32767
  overlay  : s.ov.sound
  owned    : OverlayOwned s
  channels : ∀ c, (s.chan c).sound s.params
  kbdnote  : s.kbdnote.toNat ≤ 191
  savetmr  : s.savetmr.toNat ≤ s.params.saveDelay
  bank     : s.bank.wf = true
  start    : QuietBeforeStart s

/-- Two overlays agree on everything but input `a`'s own registers: the three shared registers, and the other input's
transpose and offset contributions (10_state.md R28). -/
def Overlay.SameBut (a : Aux) (o o' : Overlay) : Prop :=
  o.arot = o'.arot ∧ o.gi = o'.gi ∧ o.gr = o'.gr ∧ ∀ b c, b ≠ a → o.ovtr b c = o'.ovtr b c ∧ o.ovof b c = o'.ovof b c

/-- A run of invocations of one channel with nothing else in between, one raw sample an invocation, at one trigger level. -/
def invocations (c : Chan) (lvl : Bool) : List (BitVec 10) → State → State
  | [], s => s
  | raw :: raws, s => invocations c lvl raws (chanProc c raw lvl s)

/-- `GateStep` run `n` times with no acceptance in between. -/
def gateSteps (gatelen : BitVec 16) : Nat → Channel → Channel
  | 0, r => r
  | n + 1, r => gateSteps gatelen n (gateStep gatelen r)

/-- The part of an invocation before the candidate, run `n` times with the trigger inactive, and what the last run reports:
whether a pending trigger delay fires in it. -/
def idleInputs (p : Params) (gatelen : BitVec 16) (tds : BitVec 4) : Nat → Channel → Channel × Bool
  | 0, r => (r, false)
  | n + 1, r => channelInput p gatelen tds false (idleInputs p gatelen tds n r).1

/-- The entry of the housekeeping level and its return, `n` times with no edit in between. -/
def housekeepingRounds : Nat → State → State
  | 0, s => s
  | n + 1, s => housekeepingRounds n (leaveHousekeeping (enterHousekeeping s))

/-- The state without the model-only flag `OVERRUN` (10_state.md R46). -/
def State.eraseOverrun (s : State) : State := { s with overrun := false }

/-- An outcome without the model-only flag `OVERRUN`. -/
def eraseOverrun : Host.Outcome State Fault Refusal → Host.Outcome State Fault Refusal
  | .next s => .next s.eraseOverrun
  | .fault f => .fault f
  | .refused r => .refused r

end Sys2Proof.Machine
end

