-- ==== Sys2Proof/Certificates/Slice0/Obligations.lean ====
section
/-! DEFINITION. The statements for the provers, in the order of OBLIGATIONS.json. Each docstring names the rule of spec/ it
formalises. Where a statement is about a state after a command, it gives the whole next state, so that every register, flag
and byte it does not name is unchanged. -/

open Sys2Proof Sys2Proof.Machine

/-! ### Encoding -/

/-- Decode and encode agree on every well-formed instruction, every operand at every value (30_encoding.md R84, R85). -/
def Obligations.DecodeEncodeRoundTrip : Prop :=
  ∀ i : Instr, WellFormed i → decode (encode i) = .ok i

/-- Every word that decodes is the encoding of what it decodes to, and that is well-formed (30_encoding.md R85, R86). -/
def Obligations.EncodeDecodeRoundTrip : Prop :=
  ∀ (p : PortWord) (i : Instr), decode p = .ok i → encode i = p ∧ WellFormed i

/-- The decoder selects a row exactly where the opcode map's `match` and `mask` do, and the rows are disjoint
(30_encoding.md R85). -/
def Obligations.OpcodeMapSelectsRows : Prop :=
  ∀ w : BitVec 24,
    (∀ i, selectRow w = some i → ∀ r ∈ opcodeMap, (r.selects w = true ↔ r.mnemonic = i.mnemonic)) ∧
    (selectRow w = none ↔ ∀ r ∈ opcodeMap, r.selects w = false) ∧
    (∀ r₁ ∈ opcodeMap, ∀ r₂ ∈ opcodeMap, r₁.selects w = true → r₂.selects w = true → r₁ = r₂)

/-- The illegal words of 30_encoding.md R87, and what presenting one does: the step refuses it as illegal, and the block is
left with response code 1, data 0 and the word used up (R88, 60_exceptions.md R243). That a refusal of the step leaves that
state to a run that goes on is entry 5 of the log, and the form of the stream that the word is taken from is the model's choice
(entry 3). -/
def Obligations.IllegalWordsRefused : Prop :=
  ∀ w : BitVec 24,
    (decode (.cmd w) = .error .illegal ↔ ∀ r ∈ opcodeMap, r.selects w = false) ∧
    (((fieldOP w).toNat ∈ [0xD, 0xE, 0xF] ∨
        (fieldOP w).toNat = 4 ∧ 10 ≤ (fieldIX w).toNat ∨
        (fieldOP w).toNat = 6 ∧ 3 ≤ (fieldIX w).toNat ∨
        (fieldOP w).toNat ∈ [5, 7] ∧ 2 ≤ (fieldIX w).toNat ∨
        (fieldOP w).toNat ∈ [0, 8, 9, 0xA, 0xB, 0xC] ∧ fieldIX w ≠ 0#4) →
      decode (.cmd w) = .error .illegal) ∧
    (decode (.cmd w) = .error .illegal →
      ∀ (s : State) (rest : List Input), s.input = .cmd w :: rest → dispatchEnabled s = false →
        step s = .refused .illegal ∧
          afterRefusal .illegal s = { s with input := rest, ports := Ports.answered 1 0 })

/-- The operand checks of 30_encoding.md R86: exactly the listed operands fail, after a row is selected and before any state
changes; the step refuses the word, and the block is left with response code 2, data 0 and the word used up (R88,
60_exceptions.md R243). That a refusal of the step leaves that state to a run that goes on is entry 5 of the log, and the form
of the stream that the word is taken from is the model's choice (entry 3). -/
def Obligations.OperandChecksRefuse : Prop :=
  ∀ w : BitVec 24,
    (decode (.cmd w) = .error .operand ↔
      ∃ i, selectRow w = some i ∧
        ((∃ k, 12 ≤ k.toNat ∧
            (i = .toggle k ∨ i = .recall k ∨ i = .savebank k ∨ i = .setgli k ∨ i = .setrot k ∨ i = .settds k ∨
              ∃ o, i = .kbdnote o k)) ∨
          i = .setqm 3 ∨
          ∃ a m, i = .setauxm a m ∧ m.toNat ∉ [0, 1, 2, 3, 4, 5, 6, 255])) ∧
    (decode (.cmd w) = .error .operand →
      ∀ (s : State) (rest : List Input), s.input = .cmd w :: rest → dispatchEnabled s = false →
        step s = .refused .operand ∧
          afterRefusal .operand s = { s with input := rest, ports := Ports.answered 2 0 })

/-- The encoding examples of 30_encoding.md R92. -/
def Obligations.EncodingExamples : Prop :=
  fieldOP 0x4300F4 = 4 ∧ fieldIX 0x4300F4 = 3 ∧ fieldDATA 0x4300F4 = 0x00F4 ∧
  decode (.cmd 0x4300F4) = .ok (.settrg (BitVec.ofInt 8 (-12))) ∧
  encode (.settrg (BitVec.ofInt 8 (-12))) = .cmd 0x4300F4 ∧
  decode (.cmd 0x170000) = .ok (.toggle 7) ∧ encode (.toggle 7) = .cmd 0x170000 ∧
  decode (.cmd 0x5100FF) = .ok (.setauxm .in1 (auxModeBits .off)) ∧
  encode (.setauxm .in1 (auxModeBits .off)) = .cmd 0x5100FF ∧
  decode (.cmd 0x620050) = .ok (.kbdnote 5 0) ∧ encode (.kbdnote 5 0) = .cmd 0x620050 ∧
  decode (.adc 0x604) = .ok (.adcdone false true 516) ∧ encode (.adcdone false true 516) = .adc 0x604

/-! ### The step -/

/-- A word at a port that decodes is run: the step is the instruction's own meaning on the state with the word taken, its
refusal included; a refusal leaves response code 3 and data 0 on the port, the word used up and nothing else changed
(60_exceptions.md R243; entry 5 of the log). A command word is taken only when no dispatch is enabled; an event at once
(R252). -/
def Obligations.StepRunsDecodedWord : Prop :=
  ∀ (s : State) (p : PortWord) (rest : List Input) (i : Instr),
    s.input = inputOf p :: rest → ((∃ w, p = .cmd w) → dispatchEnabled s = false) → decode p = .ok i →
      step s = exec i { s with input := rest } ∧
      (exec i { s with input := rest } = .refused .level →
        afterRefusal .level s = { s with input := rest, ports := Ports.answered 3 0 })

/-- The scheduling rule of 60_exceptions.md R252: a pending sample first, then the entry of a pending tick, then the command
stream; and a command word is held while a dispatch goes before it. -/
def Obligations.SchedulingPriority : Prop :=
  ∀ s : State, NoEventNow s →
    (s.pends = true → step s = .next (serveSample s.consumeQuiet)) ∧
    (s.pends = false → s.ien = true → s.pendh = true → s.hact = false →
      step s = .next (enterHousekeeping s.consumeQuiet)) ∧
    (s.pends = false → ¬(s.ien = true ∧ s.pendh = true ∧ s.hact = false) →
      (∀ w rest, s.input = .cmd w :: rest → step s = runWord (.cmd w) { s with input := rest }) ∧
      ((∀ w rest, s.input ≠ .cmd w :: rest) → step s = .next s.consumeQuiet)) ∧
    (∀ w rest, s.input = .cmd w :: rest → s.consumeQuiet = s) ∧
    (∀ rest, s.input = .quiet :: rest → s.consumeQuiet = { s with input := rest })

/-- Before `START` both events are ignored: not latched, not counted, no `OVERRUN`; and command words execute at level `B`,
no dispatch holding them back (60_exceptions.md R254). -/
def Obligations.EventsIgnoredBeforeStart : Prop :=
  ∀ s : State, s.ien = false →
    (∀ a rest, s.input = .adc a :: rest → step s = .next { s with input := rest }) ∧
    (∀ rest, s.input = .tick :: rest → step s = .next { s with input := rest }) ∧
    (QuietBeforeStart s → commandLevel s = .background ∧
      ∀ w rest, s.input = .cmd w :: rest → step s = runWord (.cmd w) { s with input := rest })

/-- Every step is done or is refused (60_exceptions.md R240, R241, R243): there is no fault; a step refuses exactly where a
command word is taken that is illegal, that fails its operand check, or that is `HRET` outside the handler or `COMMIT` inside
it (R256); every other step of every state answers a next state. A refusal leaves the word used up and its code on the
response port, and nothing else changed (entry 5 of the log). The parameters never change and the environment's items are used
up one at a time, in order: both are the model's own fields (entries 1 and 3). -/
def Obligations.EveryStepIsDoneOrRefused : Prop :=
  ∀ s : State,
    (∃ t, step s = .next t ∧ t.params = s.params ∧ (t.input = s.input ∨ t.input = s.input.tail) ∧
      ∀ w, nextAction s = .command w → ∃ i, decode (.cmd w) = .ok i ∧ (i = .hret → s.hact = true) ∧
        (i = .commit → s.hact = false)) ∨
    (∃ w r code, nextAction s = .command w ∧ step s = .refused r ∧
      afterRefusal r s = { s with input := s.input.tail, ports := Ports.answered code 0 } ∧
      (decode (.cmd w) = .error .illegal ∧ r = .illegal ∧ code = 1 ∨
        decode (.cmd w) = .error .operand ∧ r = .operand ∧ code = 2 ∨
        (decode (.cmd w) = .ok .hret ∧ s.hact = false ∨ decode (.cmd w) = .ok .commit ∧ s.hact = true) ∧
          r = .level ∧ code = 3))

/-! ### Command words -/

/-- The commands that write one Configuration register and nothing more: `SETTRG`, `SETTRC`, `SETOFG`, `SETOFC`, `SETLEG`,
`SETQM`, `SETTDS`. Each marks the edit; a pending delay, a gate and a gate phase keep their values
(42_channel_processor.md R155 to R161). -/
def Obligations.PlainSetsWriteTheirRegister : Prop :=
  ∀ (s : State) (edit : Configuration → State),
    (edit = fun cfg => { s with
      cfg := cfg, savetmr := BitVec.ofNat 16 s.params.saveDelay, savepend := true, ports := Ports.answered 0 0 }) →
    (∀ v, exec (.settrg v) s = .next (edit { s.cfg with trg := v }) ∧
      exec (.settrc v) s = .next (edit { s.cfg with trc := v }) ∧
      exec (.setofg v) s = .next (edit { s.cfg with ofg := v }) ∧
      exec (.setofc v) s = .next (edit { s.cfg with ofc := v })) ∧
    (∀ f, exec (.setleg f) s = .next (edit { s.cfg with legato := f })) ∧
    (∀ q : QMode, exec (.setqm (qmodeBits q)) s = .next (edit { s.cfg with qmode := q })) ∧
    (∀ d : BitVec 4, d.toNat ≤ 11 → exec (.settds d) s = .next (edit { s.cfg with tds := d }))

/-- `TOGGLE k` flips semitone `k` of the unrotated scale, `SETSCALE v` loads the scale, `SETROT r` sets the base rotation;
each leaves `RSCALE` the scale moved up by the sum of both rotations, its low 4 bits 0, and marks the edit
(40_scale_model.md R105, R108, R109). -/
def Obligations.ScaleEditsRotate : Prop :=
  ∀ s : State,
    (∀ k : BitVec 4, k.toNat ≤ 11 → ∃ t, exec (.toggle k) s = .next t ∧
      t = { s with
        cfg := { s.cfg with scale := t.cfg.scale }, rscale := t.rscale,
        savetmr := BitVec.ofNat 16 s.params.saveDelay, savepend := true, ports := Ports.answered 0 0 } ∧
      t.cfg.scale.extractLsb' 0 4 = 0#4 ∧
      (∀ j : Int, en t.cfg.scale j = (en s.cfg.scale j != decide (j % 12 = k.toNat))) ∧
      t.rscale.extractLsb' 0 4 = 0#4 ∧
      ∀ j : Int, en t.rscale j = en t.cfg.scale (j - (s.cfg.brot.toNat + s.ov.arot.toNat))) ∧
    (∀ v : BitVec 16, ∃ t, exec (.setscale v) s = .next t ∧
      t = { s with
        cfg := { s.cfg with scale := t.cfg.scale }, rscale := t.rscale,
        savetmr := BitVec.ofNat 16 s.params.saveDelay, savepend := true, ports := Ports.answered 0 0 } ∧
      t.cfg.scale.extractLsb' 0 4 = 0#4 ∧
      t.cfg.scale.extractLsb' 4 12 = v.extractLsb' 4 12 ∧
      t.rscale.extractLsb' 0 4 = 0#4 ∧
      ∀ j : Int, en t.rscale j = en v (j - (s.cfg.brot.toNat + s.ov.arot.toNat))) ∧
    (∀ r : BitVec 4, r.toNat ≤ 11 → ∃ t, exec (.setrot r) s = .next t ∧
      t = { s with
        cfg := { s.cfg with brot := r }, rscale := t.rscale,
        savetmr := BitVec.ofNat 16 s.params.saveDelay, savepend := true, ports := Ports.answered 0 0 } ∧
      t.rscale.extractLsb' 0 4 = 0#4 ∧
      ∀ j : Int, en t.rscale j = en s.cfg.scale (j - (r.toNat + s.ov.arot.toNat)))

/-- `RECALL b` loads bank `b`, masked, sets the base rotation to 0, keeps the auxiliary rotation, and marks the edit; an
empty bank is loaded like any other (40_scale_model.md R104, R106). That the read leaves the bank memory's port not driven is
the model's choice (entry 16 of the log). -/
def Obligations.RecallLoadsBank : Prop :=
  ∀ (s : State) (b : Fin 12), ∃ t, exec (.recall (BitVec.ofNat 4 b.val)) s = .next t ∧
    t = { s with
      cfg := { s.cfg with scale := t.cfg.scale, brot := 0 }, rscale := t.rscale,
      savetmr := BitVec.ofNat 16 s.params.saveDelay, savepend := true, ports := Ports.answered 0 0 } ∧
    t.cfg.scale.extractLsb' 0 4 = 0#4 ∧
    t.cfg.scale.extractLsb' 4 12 = (s.bank.bankRead b).extractLsb' 4 12 ∧
    t.rscale.extractLsb' 0 4 = 0#4 ∧
    ∀ j : Int, en t.rscale j = en (s.bank.bankRead b) (j - s.ov.arot.toNat)

/-- `SAVEBANK b` stores the unrotated scale in bank `b` and drives the bank memory's port; every other bank, and every byte
outside the two of bank `b`, reads as before, and nothing else changes: it is not an edit (40_scale_model.md R107,
20_memory.md R62). -/
def Obligations.SavebankStoresScale : Prop :=
  ∀ (s : State) (b : Fin 12), s.bank.wf = true → ∃ t, exec (.savebank (BitVec.ofNat 4 b.val)) s = .next t ∧
    t = { s with bank := t.bank, ports := { Ports.answered 0 0 with bankWr := some (b, s.cfg.scale) } } ∧
    t.bank.bankRead b = s.cfg.scale ∧
    (∀ c, c ≠ b → t.bank.bankRead c = s.bank.bankRead c) ∧
    (∀ a, a ≠ 2 * b.val → a ≠ 2 * b.val + 1 → t.bank.readByte a = s.bank.readByte a) ∧
    t.bank.wf = true

/-- `SETGLI i` sets the index and recomputes `GATELEN` as a duration from the table, and marks the edit (44_gate_length.md
R203). -/
def Obligations.SetgliRecomputesGateLength : Prop :=
  ∀ (s : State) (i : BitVec 4), s.params.valid = true → s.ov.gr.toNat ≤ 39 → i.toNat ≤ 11 →
    ∃ t, exec (.setgli i) s = .next t ∧
      t = { s with
        cfg := { s.cfg with gli := i }, gatelen := t.gatelen,
        savetmr := BitVec.ofNat 16 s.params.saveDelay, savepend := true, ports := Ports.answered 0 0 } ∧
      (t.gatelen.toNat : Int) = gateLen s.params i.toNat s.ov.gi.toInt s.ov.gr.toNat

/-- `SETAUXM a, m` assigns the mode, takes all of input `a`'s overlay contributions back to neutral (a shared register only
if the old mode contributed to it), recomputes both derived registers, and marks the edit; the other input's contributions,
`AUXLAST` and everything else stay (43_aux_processor.md R192). -/
def Obligations.SetauxmReleasesInput : Prop :=
  ∀ (s : State) (a : Aux) (mode : AuxMode), ∃ t, exec (.setauxm a (auxModeBits mode)) s = .next t ∧
    t = { s with
      cfg := { s.cfg with auxm0 := t.cfg.auxm0, auxm1 := t.cfg.auxm1 }, ov := t.ov, rscale := t.rscale,
      gatelen := t.gatelen, savetmr := BitVec.ofNat 16 s.params.saveDelay, savepend := true,
      ports := Ports.answered 0 0 } ∧
    t.auxm a = mode ∧ (∀ b, b ≠ a → t.auxm b = s.auxm b) ∧
    (∀ c, t.ov.ovtr a c = 0#8 ∧ t.ov.ovof a c = 0#8) ∧
    (∀ b c, b ≠ a → t.ov.ovtr b c = s.ov.ovtr b c ∧ t.ov.ovof b c = s.ov.ovof b c) ∧
    t.ov.arot = (if s.auxm a = .rotate then 0#4 else s.ov.arot) ∧
    t.ov.gi = (if s.auxm a = .gateLength then 0#8 else s.ov.gi) ∧
    t.ov.gr = (if s.auxm a = .gateLength then 0#6 else s.ov.gr) ∧
    t.rscale = rot s.cfg.scale s.cfg.brot t.ov.arot ∧
    t.gatelen = BitVec.ofInt 16 (gateLen s.params s.cfg.gli.toNat t.ov.gi.toInt t.ov.gr.toNat)

/-- `NOP`, `START`, `KBDON`, `KBDOFF`, `KBDNOTE`, `TRIGEDGE`: what each sets, and nothing else; none of them is an edit
(46_system_ops.md R220, R221; 42_channel_processor.md R162 to R165). -/
def Obligations.PlainCommandsComplete : Prop :=
  ∀ s : State,
    exec .nop s = .next { s with ports := Ports.answered 0 0 } ∧
    exec .start s = .next { s with ien := true, ports := Ports.answered 0 0 } ∧
    exec .kbdon s = .next { s with kbdact := true, ports := Ports.answered 0 0 } ∧
    exec .kbdoff s = .next { s with
      kbdact := false, kbdtrig0 := false, kbdtrig1 := false, ports := Ports.answered 0 0 } ∧
    (∀ o n : BitVec 4, n.toNat ≤ 11 → ∃ t, exec (.kbdnote o n) s = .next t ∧
      t = { s with kbdnote := t.kbdnote, kbdtrig0 := true, kbdtrig1 := true, ports := Ports.answered 0 0 } ∧
      t.kbdnote.toNat = 12 * o.toNat + n.toNat) ∧
    exec (.trigedge .ch0) s = .next { s with ch0 := { s.ch0 with elatch := true }, ports := Ports.answered 0 0 } ∧
    exec (.trigedge .ch1) s = .next { s with ch1 := { s.ch1 with elatch := true }, ports := Ports.answered 0 0 }

/-- `HRET` returns from the housekeeping handler and restores nothing else; outside the handler it is refused `LEVEL`
(46_system_ops.md R225). -/
def Obligations.HretReturnsFromHousekeeping : Prop :=
  ∀ s : State,
    (s.hact = true → exec .hret s = .next { s with hact := false, ports := Ports.answered 0 0 }) ∧
    (s.hact = false → exec .hret s = .refused .level)

/-- `COMMIT` at level `B` saves all twelve configuration registers when the request is pending, its delay has run out and
storage is free, and otherwise does nothing and answers `OK`; at level `H` it is refused `LEVEL` (46_system_ops.md R229). -/
def Obligations.CommitSavesWhenDue : Prop :=
  ∀ s : State,
    (s.hact = false → s.savepend = true → s.savetmr = 0#16 → s.storageBusy = false →
      exec .commit s = .next { s with
        savepend := false, ports := { Ports.answered 0 0 with cfgSave := some s.cfg } }) ∧
    (s.hact = false → ¬(s.savepend = true ∧ s.savetmr = 0#16 ∧ s.storageBusy = false) →
      exec .commit s = .next { s with ports := Ports.answered 0 0 }) ∧
    (s.hact = true → exec .commit s = .refused .level)

/-- `CFGDEF` loads the defaults of `P`, takes both inputs' overlay contributions back (a shared register if either input's
old mode contributed to it), recomputes both derived registers from the new values, and requests the commit at once; runtime
registers and banks are untouched. In a sound state the whole overlay is then neutral, and with the defaults of 10_state.md
R24 `RSCALE = 0xFFF0` and `GATELEN = GATE_TABLE[0]` (46_system_ops.md R228). That the defaults are a parameter is entry 10 of
the log. -/
def Obligations.CfgdefLoadsDefaults : Prop :=
  ∀ s : State, ∃ t, exec .cfgdef s = .next t ∧
    t = { s with
      cfg := s.params.defaults, ov := t.ov, rscale := t.rscale, gatelen := t.gatelen, savetmr := 0, savepend := true,
      ports := Ports.answered 0 0 } ∧
    (∀ a c, t.ov.ovtr a c = 0#8 ∧ t.ov.ovof a c = 0#8) ∧
    t.ov.arot = (if s.auxm .in0 = .rotate ∨ s.auxm .in1 = .rotate then 0#4 else s.ov.arot) ∧
    t.ov.gi = (if s.auxm .in0 = .gateLength ∨ s.auxm .in1 = .gateLength then 0#8 else s.ov.gi) ∧
    t.ov.gr = (if s.auxm .in0 = .gateLength ∨ s.auxm .in1 = .gateLength then 0#6 else s.ov.gr) ∧
    t.rscale = rot s.params.defaults.scale s.params.defaults.brot t.ov.arot ∧
    t.gatelen = BitVec.ofInt 16 (gateLen s.params s.params.defaults.gli.toNat t.ov.gi.toInt t.ov.gr.toNat) ∧
    (Inv s →
      t.ov = Overlay.neutral ∧ t.rscale = rot s.params.defaults.scale s.params.defaults.brot 0#4 ∧
      t.gatelen.toNat = s.params.gateAt s.params.defaults.gli.toNat ∧
      (s.params.defaults = Configuration.builtin →
        t.rscale = 0xFFF0#16 ∧ t.gatelen.toNat = s.params.gateAt 0 ∧
        t.cfg.scale = 0xFFF0#16 ∧ t.cfg.auxm0 = .off ∧ t.cfg.auxm1 = .off))

/-- `RDREG addr` answers `OK` with the register's value and has no side effect, at either level (46_system_ops.md R226,
10_state.md R21). That a read of a bank (0x70 + b) or of `BANKOCC` leaves the bank memory's port not driven is the model's
choice (entry 16 of the log). -/
def Obligations.RdregHasNoSideEffect : Prop :=
  ∀ (s : State) (addr : BitVec 8),
    exec (.rdreg addr) s = .next { s with ports := Ports.answered 0 (regRead s addr) }

/-- The register map: every address of 10_state.md and 20_memory.md R64 reads its register, zero-extended or sign-extended,
and every other address reads 0 (10_state.md R21, 46_system_ops.md R226). -/
def Obligations.RegisterMap : Prop :=
  ∀ s : State,
    (regRead s 0x00 = s.cfg.scale ∧ regRead s 0x01 = s.cfg.gli.zeroExtend 16 ∧
      regRead s 0x02 = s.cfg.brot.zeroExtend 16 ∧ regRead s 0x03 = s.cfg.trg.signExtend 16 ∧
      regRead s 0x04 = s.cfg.trc.signExtend 16 ∧ regRead s 0x05 = s.cfg.ofg.signExtend 16 ∧
      regRead s 0x06 = s.cfg.ofc.signExtend 16 ∧ (regRead s 0x07).toNat = s.cfg.legato.toNat ∧
      regRead s 0x08 = (qmodeBits s.cfg.qmode).zeroExtend 16 ∧ regRead s 0x09 = s.cfg.tds.zeroExtend 16 ∧
      regRead s 0x0A = (auxModeBits s.cfg.auxm0).zeroExtend 16 ∧
      regRead s 0x0B = (auxModeBits s.cfg.auxm1).zeroExtend 16) ∧
    (regRead s 0x10 = s.rscale ∧ regRead s 0x11 = s.gatelen ∧ regRead s 0x18 = s.ov.arot.zeroExtend 16 ∧
      regRead s 0x19 = (s.ov.ovtr .in0 .ch0).signExtend 16 ∧ regRead s 0x1A = (s.ov.ovtr .in0 .ch1).signExtend 16 ∧
      regRead s 0x1B = (s.ov.ovtr .in1 .ch0).signExtend 16 ∧ regRead s 0x1C = (s.ov.ovtr .in1 .ch1).signExtend 16 ∧
      regRead s 0x1D = (s.ov.ovof .in0 .ch0).signExtend 16 ∧ regRead s 0x1E = (s.ov.ovof .in0 .ch1).signExtend 16 ∧
      regRead s 0x1F = (s.ov.ovof .in1 .ch0).signExtend 16 ∧ regRead s 0x20 = (s.ov.ovof .in1 .ch1).signExtend 16 ∧
      regRead s 0x21 = s.ov.gi.signExtend 16 ∧ regRead s 0x22 = s.ov.gr.zeroExtend 16) ∧
    (∀ (c : Chan) (base : BitVec 8), base = (match c with | .ch0 => 0x30#8 | .ch1 => 0x38#8) →
      regRead s base = (s.chan c).out.zeroExtend 16 ∧ regRead s (base + 1) = (s.chan c).lgn.zeroExtend 16 ∧
      regRead s (base + 2) = (s.chan c).gph ∧
      (regRead s (base + 3)).toNat = (match (s.chan c).mode with | .freeRunning => 0 | .triggered => 1) ∧
      regRead s (base + 4) = (s.chan c).tcnt ∧ regRead s (base + 5) = (s.chan c).tdly.zeroExtend 16 ∧
      (regRead s (base + 6)).toNat = (s.chan c).gate.toNat ∧ (regRead s (base + 7)).toNat = (s.chan c).elatch.toNat) ∧
    (regRead s 0x40 = s.auxlast0.zeroExtend 16 ∧ regRead s 0x41 = s.auxlast1.zeroExtend 16 ∧
      (regRead s 0x48).toNat = s.kbdact.toNat ∧ regRead s 0x49 = s.kbdnote.zeroExtend 16 ∧
      (regRead s 0x4A).toNat = 2 * s.kbdtrig1.toNat + s.kbdtrig0.toNat ∧ regRead s 0x50 = s.nextch.zeroExtend 16 ∧
      (regRead s 0x51).toNat = 8 * s.hact.toNat + 4 * s.pendh.toNat + 2 * s.pends.toNat + s.ien.toNat ∧
      regRead s 0x52 = s.savetmr ∧ (regRead s 0x53).toNat = s.savepend.toNat ∧
      regRead s 0x54 = s.sdata.zeroExtend 16) ∧
    (∀ b : Fin 12, regRead s (BitVec.ofNat 8 (0x70 + b.val)) = s.bank.bankRead b ∧
      (regRead s 0x60).getLsbD b.val = decide ((s.bank.bankRead b).extractLsb' 4 12 ≠ 0#12)) ∧
    (∀ i, 12 ≤ i → (regRead s 0x60).getLsbD i = false) ∧
    (∀ addr : BitVec 8,
      addr.toNat ∉ List.range 0x0C ++ [0x10, 0x11] ++ List.range' 0x18 11 ++ List.range' 0x30 16 ++
        [0x40, 0x41, 0x48, 0x49, 0x4A] ++ List.range' 0x50 5 ++ [0x60] ++ List.range' 0x70 12 →
      regRead s addr = 0#16)

/-- The events: `ADCDONE` latches its word and sets `PENDS`, marking an overrun if a word was still pending, and `HKTICK`
sets `PENDH`; before `START` each is ignored (45_sampling_sequencer.md R210, 46_system_ops.md R223). -/
def Obligations.EventsLatch : Prop :=
  ∀ (s : State) (t1 t0 : Bool) (raw : BitVec 10),
    (s.ien = true → ∃ t, exec (.adcdone t1 t0 raw) s = .next t ∧
      t = { s with sdata := t.sdata, pends := true, overrun := s.overrun || s.pends } ∧
      t.sdata.extractLsb' 0 10 = raw ∧ t.sdata.getLsbD 10 = t0 ∧ t.sdata.getLsbD 11 = t1) ∧
    (s.ien = true → exec .hktick s = .next { s with pendh := true }) ∧
    (s.ien = false → exec (.adcdone t1 t0 raw) s = .next s ∧ exec .hktick s = .next s)

/-- Every well-formed instruction but `HRET` and `COMMIT` completes in every state, at either level (60_exceptions.md
R256), and an ill-formed one is refused `OPERAND` in every state (30_encoding.md R86). -/
def Obligations.WellFormedInstructionsComplete : Prop :=
  ∀ (i : Instr) (s : State),
    (WellFormed i → i ≠ .hret → i ≠ .commit → ∃ t, exec i s = .next t) ∧
    (¬WellFormed i → exec i s = .refused .operand)

/-! ### Dispatches -/

/-- `SDISP` clears `PENDS`, advances `NEXTCH` by 1 modulo 4, and makes exactly one invocation: that of input `NEXTCH xor 2`
with the sample of `SDATA`, a channel with its own trigger level (45_sampling_sequencer.md R211, R212). -/
def Obligations.SdispServesOneInput : Prop :=
  ∀ s : State, NoEventNow s → s.pends = true →
    ∃ u, u = { s.consumeQuiet with pends := false, nextch := s.nextch + 1, ports := Ports.idle } ∧
      (s.nextch = 2#2 → step s = .next (chanProc .ch0 (s.sdata.extractLsb' 0 10) (s.sdata.getLsbD 10) u)) ∧
      (s.nextch = 3#2 → step s = .next (chanProc .ch1 (s.sdata.extractLsb' 0 10) (s.sdata.getLsbD 11) u)) ∧
      (s.nextch = 0#2 → step s = .next (auxProc .in0 (s.sdata.extractLsb' 0 10) u)) ∧
      (s.nextch = 1#2 → step s = .next (auxProc .in1 (s.sdata.extractLsb' 0 10) u))

/-- `HDISP`, the entry of the housekeeping level: it takes the tick, masks re-entry and counts the save timer, which stops
at 0; it saves nothing (46_system_ops.md R224, 60_exceptions.md R251). -/
def Obligations.HdispEntersHousekeeping : Prop :=
  ∀ s : State, NoEventNow s → s.ien = true → s.pendh = true → s.hact = false → s.pends = false →
    ∃ t, step s = .next t ∧
      t = { s.consumeQuiet with pendh := false, hact := true, savetmr := t.savetmr, ports := Ports.idle } ∧
      t.savetmr.toNat = s.savetmr.toNat - 1 ∧ commandLevel t = .housekeeping

/-- `CHANPROC(c, ..)` writes only the runtime registers of channel `c` and `KBDTRIG[c]`, and drives only its own pitch
strobe (42_channel_processor.md R140). -/
def Obligations.ChannelInvocationFrame : Prop :=
  ∀ (c d : Chan) (raw : BitVec 10) (lvl : Bool) (s : State), d ≠ c →
    ∃ t, chanProc c raw lvl s = t ∧ t.chan d = s.chan d ∧ t.kbdtrig d = s.kbdtrig d ∧
      t = { s with
        ch0 := t.ch0, ch1 := t.ch1, kbdtrig0 := t.kbdtrig0, kbdtrig1 := t.kbdtrig1,
        ports := { s.ports with pitchWr0 := t.ports.pitchWr0, pitchWr1 := t.ports.pitchWr1 } } ∧
      (c = .ch0 → t.ports.pitchWr1 = s.ports.pitchWr1) ∧ (c = .ch1 → t.ports.pitchWr0 = s.ports.pitchWr0)

/-- `AUXPROC(a, ..)` writes `AUXLAST[a]`, the overlay, `RSCALE`, `GATELEN`, and in scale-recall mode only `SCALE` and `BROT`;
it never marks an edit and never touches a channel (43_aux_processor.md R180, R189). That scale-recall's read leaves the bank
memory's port as it was is the model's choice (entry 16 of the log). -/
def Obligations.AuxInvocationFrame : Prop :=
  ∀ (a b : Aux) (raw : BitVec 10) (s : State), b ≠ a →
    ∃ t, auxProc a raw s = t ∧ t.auxlast b = s.auxlast b ∧
      (∀ c, t.ov.ovtr b c = s.ov.ovtr b c ∧ t.ov.ovof b c = s.ov.ovof b c) ∧
      t = { s with
        cfg := { s.cfg with scale := t.cfg.scale, brot := t.cfg.brot }, ov := t.ov, rscale := t.rscale,
        gatelen := t.gatelen, auxlast0 := t.auxlast0, auxlast1 := t.auxlast1 } ∧
      (s.auxm a ≠ .scaleRecall → t.cfg = s.cfg) ∧
      (s.auxm a = .off → t = s.setAuxlast a (t.auxlast a))

/-- `NEXTCH` is advanced by 1 modulo 4 by every `SDISP` and by no other step but a reset, drives `mux_sel` and reads at 0x50;
of any four dispatches in a row each input is served exactly once (10_state.md R44, 45_sampling_sequencer.md R212). -/
def Obligations.SequencerAdvancesOnlyAtSdisp : Prop :=
  (∀ s t : State, step s = .next t →
    (nextAction s = .sdisp → t.nextch.toNat = (s.nextch.toNat + 1) % 4) ∧
    (nextAction s ≠ .sdisp → nextAction s ≠ .reset → t.nextch = s.nextch)) ∧
  (∀ s : State, s.muxSel = s.nextch ∧ regRead s 0x50 = s.nextch.zeroExtend 16) ∧
  (∀ (n : BitVec 2) (x : Served), ∃ j : BitVec 2, served (n + j) = x ∧ ∀ k, served (n + k) = x → k = j)

/-! ### Scale Model and Quantization Engine -/

/-- A rotation by `r` moves the whole pattern up by `r` semitones, wrapping at the octave (40_scale_model.md R101), and the
laws of `Rot12` (R102): invertible modulo 12, the low 4 bits of any rotated scale are 0, the number of set bits is kept, and
`RSCALE` is empty if and only if `SCALE` is. -/
def Obligations.RotationLaws : Prop :=
  (∀ (f : BitVec 12) (r : Nat), r ≤ 11 →
    (∀ j : Nat, j ≤ 11 → (rot12 f r).getLsbD j = f.getLsbD ((((j : Int) - r) % 12).toNat)) ∧
    rot12 (rot12 f r) ((12 - r) % 12) = f ∧
    ((List.range 12).filter (fun k => (rot12 f r).getLsbD k)).length =
      ((List.range 12).filter (fun k => f.getLsbD k)).length) ∧
  (∀ (w : BitVec 16) (b a : BitVec 4),
    (∀ k : Int, en (rot w b a) k = en w (k - (b.toNat + a.toNat))) ∧
    (rot w b a).extractLsb' 0 4 = 0#4 ∧ emptyScale (rot w b a) = emptyScale w)

/-- The rounding step, the laws (a) to (e) of the quantizers, `QSkip` on a disabled semitone and on no semitone, and the
empty scale (41_quantization_engine.md R121, R124, R126, R129). -/
def Obligations.QuantizerLaws : Prop :=
  ∀ (biased : Bool) (rscale : BitVec 16) (s : Int),
    (s < -4 → roundStep s = none ∧ qSkip rscale s = none) ∧
    (∀ n rem : Int, 0 ≤ n → 0 ≤ rem → rem ≤ 7 → s + 4 = 8 * n + rem → roundStep s = some (n, rem)) ∧
    (∀ n rem, roundStep s = some (n, rem) → en rscale n = false → qSkip rscale s = none) ∧
    (∀ n rem, roundStep s = some (n, rem) → en rscale n = true →
      qNearest biased rscale s = qSkip rscale s ∧ qSkip rscale s = range n) ∧
    (∀ m, qNearest biased rscale s = some m →
      en rscale m.toNat = true ∧
      ∀ n rem, roundStep s = some (n, rem) → (m.toNat : Int) - n ≤ 6 ∧ n - (m.toNat : Int) ≤ 6) ∧
    (∀ m, qSkip rscale s = some m →
      en rscale m.toNat = true ∧ 8 * (m.toNat : Int) - s ≤ 4 ∧ s - 8 * (m.toNat : Int) ≤ 4) ∧
    (∀ m, qEqual rscale s = some m → en rscale m.toNat = true ∧ (m.toNat : Int) / 12 = s / 96) ∧
    (rscale.extractLsb' 4 12 = 0#12 →
      qNearest biased rscale s = none ∧ qSkip rscale s = none ∧ qEqual rscale s = none)

/-- `QNearest` (41_quantization_engine.md R123): `NoNote` on an empty scale and below the first semitone; the nearest
semitone itself if it is enabled; otherwise, at the smallest distance that has an enabled semitone (1 to 6), the enabled
neighbour, and of two the higher if and only if the remainder is at least half a semitone. A neighbour outside 0 to 127 gives
`NoNote`, not the other one. The switch `TIE_REM_BIASED` is at the spec's value. -/
def Obligations.NearestSearchRule : Prop :=
  ∀ (rscale : BitVec 16) (s : Int),
    (rscale.extractLsb' 4 12 = 0#12 → qNearest true rscale s = none) ∧
    (s < -4 → qNearest true rscale s = none) ∧
    (∀ n rem : Int, rscale.extractLsb' 4 12 ≠ 0#12 → 0 ≤ n → s + 4 = 8 * n + rem → 0 ≤ rem → rem ≤ 7 →
      (en rscale n = true → qNearest true rscale s = range n) ∧
      (en rscale n = false → ∃ d : Nat, 1 ≤ d ∧ d ≤ 6 ∧
        (∀ e : Nat, e < d → en rscale (n - e) = false ∧ en rscale (n + e) = false) ∧
        (en rscale (n - d) = true ∨ en rscale (n + d) = true) ∧
        qNearest true rscale s =
          range (if en rscale (n + d) = true ∧ (en rscale (n - d) = false ∨ 4 ≤ rem) then n + d else n - d)))

/-- `QSemi` rounds to the nearest semitone, a tie at half a semitone going up, and gives a note for exactly the samples that
round to 0 to 127 (41_quantization_engine.md R121, R122). -/
def Obligations.SemitoneRounding : Prop :=
  ∀ (s : Int),
    (∀ n : Note, qSemi s = some n ↔ 8 * (n.toNat : Int) - 4 ≤ s ∧ s ≤ 8 * (n.toNat : Int) + 3) ∧
    (qSemi s = none ↔ s ≤ -5 ∨ 1020 ≤ s)

/-- With all twelve semitones enabled the two rounding quantizers are `QSemi` and `QEqual` truncates
(41_quantization_engine.md R125; 95_test_vectors.md section 3.3). -/
def Obligations.ChromaticScaleRounds : Prop :=
  ∀ (biased : Bool) (s : Int),
    qNearest biased 0xFFF0 s = qSemi s ∧ qSkip 0xFFF0 s = qSemi s ∧
    qEqual 0xFFF0 s = (if s < 0 then none else range (s / 8))

/-- `QEqual` (41_quantization_engine.md R125): `NoNote` on an empty scale and for a negative sample; otherwise, in the
sample's own octave, the enabled note whose rank among the enabled notes is `floor(position * enabledCount / 96)`, `NoNote`
where that note lies above 127. -/
def Obligations.EqualSpacingRank : Prop :=
  ∀ (rscale : BitVec 16) (s : Int),
    (rscale.extractLsb' 4 12 = 0#12 → qEqual rscale s = none) ∧
    (s < 0 → qEqual rscale s = none) ∧
    (rscale.extractLsb' 4 12 ≠ 0#12 → 0 ≤ s →
      ∃ k : Nat, k ≤ 11 ∧ en rscale k = true ∧
        (((List.range k).filter (fun j => en rscale j)).length : Int) =
          ((s % 96) * (((List.range 12).filter (fun j => en rscale j)).length : Int)) / 96 ∧
        qEqual rscale s = range (12 * (s / 96) + k))

/-! ### Gate length, hysteresis and modulation -/

/-- `GateLen` for every `P` that meets its constraints (44_gate_length.md R200): clamped to the first and last table entry,
the entry itself at remainder 0, the next entry at remainder 39, never outside the two between which it interpolates, and
never falling as the remainder grows. -/
def Obligations.GateLengthInterpolates : Prop :=
  ∀ (p : Params) (gli : Nat) (ovgi : Int) (ovgr : Nat), p.valid = true → gli ≤ 11 → ovgr ≤ 39 →
    ((gli : Int) + ovgi < 0 → gateLen p gli ovgi ovgr = p.gateAt 0) ∧
    (11 ≤ (gli : Int) + ovgi → gateLen p gli ovgi ovgr = p.gateAt 11) ∧
    (∀ i : Nat, i ≤ 10 → (gli : Int) + ovgi = i →
      gateLen p gli ovgi 0 = p.gateAt i ∧ gateLen p gli ovgi 39 = p.gateAt (i + 1) ∧
      gateLen p gli ovgi ovgr = p.gateAt i + ((ovgr : Int) * ((p.gateAt (i + 1) : Int) - p.gateAt i)) / 39 ∧
      (p.gateAt i : Int) ≤ gateLen p gli ovgi ovgr ∧ gateLen p gli ovgi ovgr ≤ p.gateAt (i + 1)) ∧
    (∀ r, r ≤ ovgr → gateLen p gli ovgi r ≤ gateLen p gli ovgi ovgr)

/-- The worked examples of 44_gate_length.md R201, under REF. -/
def Obligations.GateLengthExamples : Prop :=
  gateLen Params.ref 0 0 20 = 28 ∧ (5 + (20 * 45) / 39 : Int) = 28 ∧ gateLen Params.ref 0 0 0 = 5 ∧
  gateLen Params.ref 0 0 39 = 50 ∧ gateLen Params.ref 0 (-1) 30 = 5 ∧ gateLen Params.ref 11 0 0 = 2400 ∧
  gateLen Params.ref 10 0 20 = 2010 ∧ (1600 + (20 * 800) / 39 : Int) = 1600 + 410 ∧ gateLen Params.ref 5 13 23 = 2400

/-- The modulation sums are sums of integers, neither saturating nor wrapping; the channel-specific value counts for channel
`ONE_CH` only; in a sound state each lies in -510..508 (42_channel_processor.md R150). -/
def Obligations.ModulationSums : Prop :=
  ∀ (s : State) (c : Chan),
    (c = s.params.oneCh →
      ofSum s c = s.cfg.ofg.toInt + (s.ov.ovof .in0 c).toInt + (s.ov.ovof .in1 c).toInt + s.cfg.ofc.toInt ∧
      trSum s c = s.cfg.trg.toInt + (s.ov.ovtr .in0 c).toInt + (s.ov.ovtr .in1 c).toInt + s.cfg.trc.toInt) ∧
    (c ≠ s.params.oneCh →
      ofSum s c = s.cfg.ofg.toInt + (s.ov.ovof .in0 c).toInt + (s.ov.ovof .in1 c).toInt ∧
      trSum s c = s.cfg.trg.toInt + (s.ov.ovtr .in0 c).toInt + (s.ov.ovtr .in1 c).toInt) ∧
    (Inv s → -510 ≤ ofSum s c ∧ ofSum s c ≤ 508 ∧ -510 ≤ trSum s c ∧ trSum s c ≤ 508)

/-! ### Channel Processor -/

/-- The acceptance rule (42_channel_processor.md R149, R151, R152), with `r` the channel's registers after the first three
sub-steps, `GateStep`, `TrigCountdown` and `TrigInput` in this order (R141): an invocation accepts if and only if the trigger
condition holds and the candidate is a note. On acceptance the output is the note, the strobe is driven, the settling delay
starts, and the gate is cleared unless legato is on; otherwise the registers are `r`'s and no strobe is driven. In manual
override the channel's key flag is spent. The switch `LEGATO_ARMS` is at the spec's value. -/
def Obligations.AcceptanceRule : Prop :=
  ∀ (c : Chan) (raw : BitVec 10) (lvl : Bool) (s : State) (r₁ r : Channel) (fire : Bool) (taken : Note → Channel),
    s.params.legatoArms = true → trigCountdown (gateStep s.gatelen (s.chan c)) = (r₁, fire) →
    r = trigInput s.params s.cfg.tds lvl r₁ →
    (taken = fun n => { r with
      out := n, gate := s.cfg.legato && r.gate, gph := BitVec.ofInt 16 (-(s.params.settle : Int)) }) →
    (s.kbdact = true →
      (∀ n, range s.kbdnote.toNat = some n → s.kbdtrig c = true →
        chanProc c raw lvl s = strobePitch c ((s.setChan c (taken n)).clearKbdtrig c)) ∧
      ((range s.kbdnote.toNat = none ∨ s.kbdtrig c = false) →
        chanProc c raw lvl s = (s.setChan c r).clearKbdtrig c)) ∧
    (s.kbdact = false → ∀ cand, cand = pitchCandidate (s.setChan c r) c raw →
      (∀ n, cand = some n → (r.mode = .freeRunning ∧ n ≠ r.out ∨ r.mode = .triggered ∧ fire = true) →
        chanProc c raw lvl s = strobePitch c (s.setChan c (taken n))) ∧
      ((cand = none ∨ r.mode = .freeRunning ∧ cand = some r.out ∨ r.mode = .triggered ∧ fire = false) →
        chanProc c raw lvl s = s.setChan c r))

/-- The candidate of the normal path (42_channel_processor.md R148, R149): the sample is lowered by `HYST_UP` when it lies
above the current output and raised by `HYST_DN` when it lies below; the offset, in semitones, is added before quantization,
the transpose after, and a sum outside 0 to 127 is `NoNote`; nothing wraps. `QMODE` 0, 1, 2 quantizes with `QNearest`,
`QSkip`, `QEqual` (41_quantization_engine.md R127). -/
def Obligations.CandidateArithmeticOrder : Prop :=
  ∀ (s : State) (c : Chan) (raw : BitVec 10) (n : Note) (h x : Int) (q : NoteValue),
    (8 * (s.chan c).out.toNat < raw.toNat ∧ h = (raw.toNat : Int) - s.params.hystUp ∨
      raw.toNat < 8 * (s.chan c).out.toNat ∧ h = (raw.toNat : Int) + s.params.hystDn ∨
      raw.toNat = 8 * (s.chan c).out.toNat ∧ h = raw.toNat) →
    x = h + 8 * ofSum s c →
    (qmodeBits s.cfg.qmode = 0#2 ∧ q = qNearest s.params.tieRemBiased s.rscale x ∨
      qmodeBits s.cfg.qmode = 1#2 ∧ q = qSkip s.rscale x ∨
      qmodeBits s.cfg.qmode = 2#2 ∧ q = qEqual s.rscale x) →
    (pitchCandidate s c raw = some n ↔ ∃ m : Note, q = some m ∧ (n.toNat : Int) = m.toNat + trSum s c)

/-- The trigger input (42_channel_processor.md R147): an active level or a latched edge enters triggered mode, clears the
counter, and arms the delay if enough inactive invocations came before; an inactive one counts, saturating, and reverts the
channel at the timeout. The latch is consumed, and nothing else changes. -/
def Obligations.TriggerInputRule : Prop :=
  ∀ (p : Params) (tds : BitVec 4) (lvl : Bool) (r : Channel), p.valid = true → tds.toNat ≤ 11 →
    ((lvl = true ∨ r.elatch = true) → ∃ u, trigInput p tds lvl r = u ∧
      u = { r with mode := .triggered, tcnt := 0, tdly := u.tdly, elatch := false } ∧
      (p.trigDebounceMin ≤ r.tcnt.toNat → u.tdly.toNat = 1 + p.trigDelayK * tds.toNat) ∧
      (r.tcnt.toNat < p.trigDebounceMin → u.tdly = r.tdly)) ∧
    (lvl = false → r.elatch = false → ∃ u, trigInput p tds lvl r = u ∧
      u = { r with mode := u.mode, tcnt := u.tcnt } ∧
      (r.tcnt.toNat < p.trigTimeout → u.tcnt.toNat = r.tcnt.toNat + 1) ∧
      (p.trigTimeout ≤ r.tcnt.toNat → u.tcnt = r.tcnt) ∧
      (p.trigTimeout ≤ u.tcnt.toNat → u.mode = .freeRunning) ∧
      (u.tcnt.toNat < p.trigTimeout → u.mode = r.mode))

/-- `TrigCountdown` over every channel state: with no delay pending nothing fires and nothing changes; a delay of 1 runs out
and fires; a longer one is lowered by 1 and does not fire (42_channel_processor.md R146). And a trigger armed in one
invocation with delay `D = 1 + TRIG_DELAY_K * TDS` fires in the `D`-th invocation after it, and in no other, while the
trigger stays inactive (R141 (b), R147). -/
def Obligations.TriggerDelayIsExact : Prop :=
  (∀ r : Channel,
    (r.tdly.toNat = 0 → trigCountdown r = (r, false)) ∧
    (r.tdly.toNat = 1 → trigCountdown r = ({ r with tdly := 0 }, true)) ∧
    (2 ≤ r.tdly.toNat → ∃ d : BitVec 8, trigCountdown r = ({ r with tdly := d }, false) ∧ d.toNat + 1 = r.tdly.toNat)) ∧
  (∀ (p : Params) (g : BitVec 16) (tds : BitVec 4) (r : Channel) (n : Nat),
    p.valid = true → tds.toNat ≤ 11 → p.trigDebounceMin ≤ r.tcnt.toNat →
      ((idleInputs p g tds n (channelInput p g tds true r).1).2 = true ↔ n = 1 + p.trigDelayK * tds.toNat))

/-- Gate timing (42_channel_processor.md R145): after an acceptance with the gate off and a note other than the last gated
one, the gate is off for fewer than `SETTLE` invocations, on from there for `GATELEN` invocations, and then off with the
phase idle. -/
def Obligations.GateTimingAfterAcceptance : Prop :=
  ∀ (g : BitVec 16) (settle : Nat) (r : Channel) (n : Nat),
    1 ≤ settle → settle ≤ 127 → 1 ≤ g.toNat → g.toNat ≤ 32767 →
    r.gph.toInt = -(settle : Int) → r.gate = false → r.out.toNat ≠ r.lgn.toNat →
      (n < settle → (gateSteps g n r).gate = false) ∧
      (settle ≤ n → n < settle + g.toNat →
        (gateSteps g n r).gate = true ∧ (gateSteps g n r).lgn.toNat = r.out.toNat) ∧
      (settle + g.toNat ≤ n → (gateSteps g n r).gate = false ∧ (gateSteps g n r).gph = 0#16)

/-- Gate suppression (42_channel_processor.md R144 (a)): while the gate is off and the output equals the last gated note, no
number of invocations without an acceptance turns the gate on. -/
def Obligations.RepeatedNoteRaisesNoGate : Prop :=
  ∀ (g : BitVec 16) (r : Channel) (n : Nat), r.gate = false → r.out.toNat = r.lgn.toNat →
    (gateSteps g n r).gate = false ∧ (gateSteps g n r).lgn = r.lgn ∧ (gateSteps g n r).out = r.out

/-- The round trip of 42_channel_processor.md R153: from either mode, one invocation with an active trigger enters triggered
mode, and `TRIG_TIMEOUT` further invocations with the trigger inactive return to free-running, not fewer, whatever the
samples. -/
def Obligations.TriggeredModeRoundTrip : Prop :=
  ∀ (c : Chan) (s : State) (raw : BitVec 10) (raws : List (BitVec 10)), s.params.valid = true →
    ((chanProc c raw true s).chan c).mode = .triggered ∧
    (raws.length < s.params.trigTimeout →
      ((invocations c false raws (chanProc c raw true s)).chan c).mode = .triggered) ∧
    (raws.length = s.params.trigTimeout →
      ((invocations c false raws (chanProc c raw true s)).chan c).mode = .freeRunning)

/-- In manual override the raw sample, the scale, the transposes and the offsets are not looked at
(42_channel_processor.md R149): two states that differ only in them, and two samples, leave the same channel. -/
def Obligations.KeyboardIgnoresSample : Prop :=
  ∀ (c : Chan) (raw raw' : BitVec 10) (lvl : Bool) (s : State) (trg ofg trc ofc : BitVec 8) (rs : BitVec 16)
    (o : Overlay), s.kbdact = true →
    (chanProc c raw lvl s).chan c =
      (chanProc c raw' lvl { s with
        cfg := { s.cfg with trg := trg, ofg := ofg, trc := trc, ofc := ofc }, rscale := rs, ov := o }).chan c

/-! ### Auxiliary-Voltage Processor -/

/-- An unchanged or unquantizable value fires no effect (43_aux_processor.md R184); only the gate-length mapping acts in
every invocation (R185). The value is quantized from the sample lowered by `AUX_HYST_UP` when it lies above the last value,
raised by `AUX_HYST_DN` when it lies below, and kept when it is equal (R181). -/
def Obligations.AuxUnchangedValueFiresNothing : Prop :=
  ∀ (a : Aux) (raw : BitVec 10) (s : State) (h : Int),
    (8 * (s.auxlast a).toNat < raw.toNat ∧ h = (raw.toNat : Int) - s.params.auxHystUp ∨
      raw.toNat < 8 * (s.auxlast a).toNat ∧ h = (raw.toNat : Int) + s.params.auxHystDn ∨
      raw.toNat = 8 * (s.auxlast a).toNat ∧ h = raw.toNat) →
    (qSemi h = none ∨ qSemi h = some (s.auxlast a)) →
    (s.auxm a ≠ .gateLength → auxProc a raw s = s) ∧
    (s.auxm a = .gateLength → auxProc a raw s = gateOverlay raw s)

/-- The effects of a changed value (43_aux_processor.md R181, R182, R184, R186 to R190), each with the whole next state:
where the overlay is written, the registers the effect does not write (`Overlay.SameBut`: the shared ones and the other
input's) are as before. That scale-recall's read leaves the bank memory's port as it was is the model's choice (entry 16 of
the log). -/
def Obligations.AuxEffectsOnChange : Prop :=
  ∀ (a : Aux) (raw : BitVec 10) (s : State) (h : Int) (q : Note) (v : Int) (t : State),
    s.params.valid = true →
    (8 * (s.auxlast a).toNat < raw.toNat ∧ h = (raw.toNat : Int) - s.params.auxHystUp ∨
      raw.toNat < 8 * (s.auxlast a).toNat ∧ h = (raw.toNat : Int) + s.params.auxHystDn ∨
      raw.toNat = 8 * (s.auxlast a).toNat ∧ h = raw.toNat) →
    qSemi h = some q → q ≠ s.auxlast a → v = (q.toNat : Int) - s.params.auxCenter → t = auxProc a raw s →
      t.auxlast a = q ∧
      (s.auxm a = .rotate → (t.ov.arot.toNat : Int) = v % 12 ∧ t.rscale = rot s.cfg.scale s.cfg.brot t.ov.arot ∧
        t = { s.setAuxlast a q with ov := { s.ov with arot := t.ov.arot }, rscale := t.rscale }) ∧
      (s.auxm a = .transpose → t = { s.setAuxlast a q with ov := t.ov } ∧ t.ov.SameBut a s.ov ∧
        ∀ c, (t.ov.ovtr a c).toInt = v ∧ t.ov.ovof a c = s.ov.ovof a c) ∧
      (s.auxm a = .transpose1 → t = { s.setAuxlast a q with ov := t.ov } ∧ t.ov.SameBut a s.ov ∧
        (t.ov.ovtr a s.params.oneCh).toInt = v ∧ (∀ c, c ≠ s.params.oneCh → t.ov.ovtr a c = s.ov.ovtr a c) ∧
        ∀ c, t.ov.ovof a c = s.ov.ovof a c) ∧
      (s.auxm a = .offset → t = { s.setAuxlast a q with ov := t.ov } ∧ t.ov.SameBut a s.ov ∧
        ∀ c, (t.ov.ovof a c).toInt = v ∧ t.ov.ovtr a c = s.ov.ovtr a c) ∧
      (s.auxm a = .offset1 → t = { s.setAuxlast a q with ov := t.ov } ∧ t.ov.SameBut a s.ov ∧
        (t.ov.ovof a s.params.oneCh).toInt = v ∧ (∀ c, c ≠ s.params.oneCh → t.ov.ovof a c = s.ov.ovof a c) ∧
        ∀ c, t.ov.ovtr a c = s.ov.ovtr a c) ∧
      (s.auxm a = .scaleRecall → ∃ b : Fin 12, (b.val : Int) = v % 12 ∧
        t = { s.setAuxlast a q with
          cfg := { s.cfg with scale := s.bank.bankRead b &&& 0xFFF0, brot := 0 },
          rscale := rot (s.bank.bankRead b &&& 0xFFF0) 0 s.ov.arot }) ∧
      (s.auxm a = .gateLength → t = gateOverlay raw (s.setAuxlast a q)) ∧
      (s.auxm a = .off → t = s.setAuxlast a q)

/-- The gate-length mapping (43_aux_processor.md R185): index and remainder are those of a single division of a number that
is not negative, whatever multiple of 40 it is moved by, and `GATELEN` follows. -/
def Obligations.GateOverlayDivision : Prop :=
  ∀ (raw : BitVec 10) (s : State) (b : Nat) (t : State), s.params.valid = true →
    s.params.gateZero ≤ 40 * b → t = gateOverlay raw s →
      t.ov.gi.toInt = (((raw.toNat + (40 * b - s.params.gateZero)) / 40 : Nat) : Int) - b ∧
      t.ov.gr.toNat = (raw.toNat + (40 * b - s.params.gateZero)) % 40 ∧
      (t.gatelen.toNat : Int) = gateLen s.params s.cfg.gli.toNat t.ov.gi.toInt t.ov.gr.toNat ∧
      t = { s with ov := { s.ov with gi := t.ov.gi, gr := t.ov.gr }, gatelen := t.gatelen }

/-- The example of 43_aux_processor.md R191: input 0 in rotate mode, three invocations. -/
def Obligations.AuxRotateExample : Prop :=
  ∀ s : State, s.params = Params.ref → s.cfg.auxm0 = .rotate → s.auxlast0 = 0#7 → s.cfg.scale = 0xAB50#16 →
    s.cfg.brot = 0#4 →
    auxHyst s.params 0 507 = 504 ∧ qSemi 504 = some 63 ∧ (63 : Int) - s.params.auxCenter = 3 ∧
    auxHyst s.params 63 400 = 402 ∧ qSemi 402 = some 50 ∧ (50 : Int) - s.params.auxCenter = -10 ∧
    auxHyst s.params 50 400 = 400 ∧ qSemi 400 = some 50 ∧
    ∃ t u, t = auxProc .in0 507 s ∧ u = auxProc .in0 400 t ∧
      t.auxlast0 = 63#7 ∧ t.ov.arot = 3#4 ∧ t.rscale = 0x5AD0#16 ∧
      u.auxlast0 = 50#7 ∧ u.ov.arot = 2#4 ∧ u.rscale = 0xAD60#16 ∧ auxProc .in0 400 u = u

/-! ### Reset, invariants and whole-machine rules -/

/-- The reset state of 10_state.md R49 and 70_reset_and_hazards.md R270, for every parameter record, after the first reset of
a run and after any later one: the Configuration at `DEFAULTS`, `NEXTCH = 2`, everything else 0; and with the defaults of
10_state.md R24 the values the table prints. The bank memory is not reset: it holds `BANK0` at the first reset and its
current contents at a later one (20_memory.md R62). -/
def Obligations.ResetState : Prop :=
  (∀ (p : Params) (s : State), (s = State.resetWith p ∨ ∃ u, u.params = p ∧ s = laterReset u) →
    s.params = p ∧ s.cfg = p.defaults ∧ s.ov = Overlay.neutral ∧
    (∀ c, (s.chan c).out = 0#7 ∧ (s.chan c).lgn = 0#8 ∧ (s.chan c).gph = 0#16 ∧ (s.chan c).mode = .freeRunning ∧
      (s.chan c).tcnt = 0#16 ∧ (s.chan c).tdly = 0#8 ∧ (s.chan c).gate = false ∧ (s.chan c).elatch = false ∧
      s.pitchPort c = 0#7 ∧ s.gatePort c = false) ∧
    s.auxlast0 = 0#7 ∧ s.auxlast1 = 0#7 ∧ s.kbdact = false ∧ s.kbdnote = 0#8 ∧ s.kbdtrig0 = false ∧
    s.kbdtrig1 = false ∧ s.nextch = 2#2 ∧ s.muxSel = 2#2 ∧ s.ien = false ∧ s.pends = false ∧ s.pendh = false ∧
    s.hact = false ∧ s.sdata = 0#12 ∧ s.savetmr = 0#16 ∧ s.savepend = false ∧ s.overrun = false ∧
    (p.valid = true → p.defaults = Configuration.builtin →
      s.cfg.scale = 0xFFF0#16 ∧ s.rscale = 0xFFF0#16 ∧ s.gatelen.toNat = p.gateAt 0 ∧ p.gateAt 0 = 5 ∧
      s.cfg.auxm0 = .off ∧ s.cfg.auxm1 = .off)) ∧
  (∀ (p : Params) (b : Fin 12), (State.resetWith p).bank.bankRead b = p.bank0[b]) ∧
  (∀ u : State, (laterReset u).bank = u.bank)

/-- The state after the first reset meets the invariant, for every parameter record that meets its constraints; REF meets
them, and the machine's own reset state is that of REF, which is the model's choice (entry 1 of the log; 10_state.md R49,
R51). A reset of the running block, taken where the environment presents it, leaves the reset state with the bank memory as
it was (70_reset_and_hazards.md R270); that it arrives as an item of the stream, between two operations, is the model's
choice (entry 17). -/
def Obligations.ResetMeetsInvariant : Prop :=
  (∀ p : Params, p.valid = true → Inv (State.resetWith p)) ∧ Params.ref.valid = true ∧
    State.reset = State.resetWith Params.ref ∧ Inv State.reset ∧
    ∀ (s : State) (rest : List Input), s.input = .reset :: rest →
      step s = .next (laterReset { s with input := rest }) ∧
      laterReset { s with input := rest } =
        { State.resetWith s.params with bank := s.bank, storageBusy := s.storageBusy, input := rest }

/-- Every step keeps the invariant, from every state that meets it, and with it every step leaves all eight invariants of
10_state.md R51; so does a refusal, in a run that goes on past it (60_exceptions.md R243; entry 5 of the log). -/
def Obligations.StepKeepsInvariant : Prop :=
  (∀ s t : State, Inv s → step s = .next t → Inv t ∧ BetweenOperations t) ∧
  (∀ (s : State) (r : Refusal), Inv s → step s = .refused r → Inv (afterRefusal r s) ∧ BetweenOperations (afterRefusal r s))

/-- The scheduler's flags (60_exceptions.md R246, R248 to R250): `IEN` is never cleared and is set only by `START`; `PENDS`
is set only by `ADCDONE` and cleared only by `SDISP`; `PENDH` is set only by `HKTICK` and cleared only by `HDISP`; `HACT` is
set only by `HDISP`, from 0, and cleared only by `HRET`. A reset, which is no operation, clears all four (10_state.md R49;
entry 17 of the log). -/
def Obligations.SchedulerFlagRules : Prop :=
  ∀ s t : State, step s = .next t →
    (s.ien = true → nextAction s ≠ .reset → t.ien = true) ∧
    (s.ien = false → t.ien = true → nextAction s = .command 0xA00000) ∧
    (s.pends = false → t.pends = true → s.ien = true ∧ ∃ a, nextAction s = .event (.adc a)) ∧
    (s.pends = true → t.pends = false → nextAction s ≠ .reset → nextAction s = .sdisp) ∧
    (s.pendh = false → t.pendh = true → s.ien = true ∧ nextAction s = .event .tick) ∧
    (s.pendh = true → t.pendh = false → nextAction s ≠ .reset → nextAction s = .hdisp) ∧
    (s.hact = false → t.hact = true → nextAction s = .hdisp) ∧
    (s.hact = true → t.hact = false → nextAction s ≠ .reset → nextAction s = .command 0x800000) ∧
    (nextAction s = .hdisp → s.hact = false ∧ s.pends = false ∧ s.pendh = true ∧ s.ien = true)

/-- Who writes the Configuration (10_state.md R22, 43_aux_processor.md R189): a step other than a reset that changes it runs
one of the configuration-writing command words, or is a dispatch of an auxiliary input in scale-recall mode, and that one
changes `SCALE` and `BROT` only. -/
def Obligations.ConfigurationWriters : Prop :=
  ∀ s t : State, step s = .next t → nextAction s ≠ .reset → t.cfg ≠ s.cfg →
    (∃ w i, nextAction s = .command w ∧ decode (.cmd w) = .ok i ∧
      i.mnemonic ∈ ["TOGGLE", "RECALL", "SETSCALE", "SETGLI", "SETROT", "SETTRG", "SETTRC", "SETOFG", "SETOFC", "SETLEG",
        "SETQM", "SETTDS", "SETAUXM", "CFGDEF"]) ∨
    (nextAction s = .sdisp ∧ (∃ a, served s.nextch = .auxiliary a ∧ s.auxm a = .scaleRecall) ∧
      t.cfg = { s.cfg with scale := t.cfg.scale, brot := t.cfg.brot })

/-- Who writes the runtime registers and the overlay, a reset aside (10_state.md R28, R30, R34): channel `c`'s registers
change only in the dispatch that serves channel `c`, but for `ELATCH[c]`, which `TRIGEDGE c` sets; the overlay changes only
in a dispatch of an auxiliary input, in `SETAUXM` and in `CFGDEF`; `AUXLAST[a]` only in the dispatch that serves input `a`.
-/
def Obligations.RuntimeRegisterWriters : Prop :=
  ∀ s t : State, step s = .next t → nextAction s ≠ .reset →
    (∀ c, t.chan c ≠ s.chan c →
      (nextAction s = .sdisp ∧ served s.nextch = .channel c) ∨
      (t.chan c = { s.chan c with elatch := true } ∧
        ∃ w, nextAction s = .command w ∧ decode (.cmd w) = .ok (.trigedge c))) ∧
    (t.ov ≠ s.ov →
      (nextAction s = .sdisp ∧ ∃ a, served s.nextch = .auxiliary a) ∨
      ∃ w i, nextAction s = .command w ∧ decode (.cmd w) = .ok i ∧ i.mnemonic ∈ ["SETAUXM", "CFGDEF"]) ∧
    (∀ a, t.auxlast a ≠ s.auxlast a → nextAction s = .sdisp ∧ served s.nextch = .auxiliary a)

/-- The bank memory is written by `SAVEBANK` only, and no reset changes it (20_memory.md R62); the save request is raised
only by an edit or `CFGDEF` and, a reset aside, taken back only by a `COMMIT` that drives `cfg_save` with the whole
Configuration (46_system_ops.md R222, R228, R229). -/
def Obligations.BankAndSaveRequestWriters : Prop :=
  ∀ s t : State, step s = .next t →
    (t.bank ≠ s.bank → ∃ w b, nextAction s = .command w ∧ decode (.cmd w) = .ok (.savebank b)) ∧
    (s.savepend = false → t.savepend = true → ∃ w i, nextAction s = .command w ∧ decode (.cmd w) = .ok i ∧
      i.mnemonic ∈ ["TOGGLE", "RECALL", "SETSCALE", "SETROT", "SETGLI", "SETTRG", "SETTRC", "SETOFG", "SETOFC", "SETLEG",
        "SETQM", "SETTDS", "SETAUXM", "CFGDEF"]) ∧
    (s.savepend = true → t.savepend = false → nextAction s ≠ .reset →
      nextAction s = .command 0x900000 ∧ s.hact = false ∧ s.savetmr = 0#16 ∧ s.storageBusy = false ∧
        t.ports.cfgSave = some s.cfg)

/-- The save delay (46_system_ops.md R222, R224, R229, R230): after an edit, `n` housekeeping rounds with no edit leave
`SAVE_DELAY - n` in the timer, so that a `COMMIT` with storage free is due after `SAVE_DELAY` of them and not before. -/
def Obligations.SaveDelayCountsRounds : Prop :=
  ∀ (s : State) (n : Nat), s.params.valid = true →
    (housekeepingRounds n (markEdit s)).savetmr.toNat = s.params.saveDelay - n ∧
    (s.storageBusy = false →
      (commitReady (housekeepingRounds n (markEdit s)) = true ↔ s.params.saveDelay ≤ n))

/-- `OVERRUN` (10_state.md R46): it is set by an `ADCDONE` event that arrives while `PENDS = 1`, by nothing else, and, until
the block is reset, never cleared; and no operation reads it: two states that differ only in it step to states that differ
only in it. -/
def Obligations.OverrunIsNeverRead : Prop :=
  ∀ s : State, eraseOverrun (step s) = eraseOverrun (step s.eraseOverrun) ∧
    ∀ t, step s = .next t → nextAction s ≠ .reset → (t.overrun = true ↔
      s.overrun = true ∨ s.ien = true ∧ s.pends = true ∧ ∃ a, nextAction s = .event (.adc a))

/-! ### Channel Processor: the gate step -/

/-- `GateStep` over every channel state and every current `GATELEN` (42_channel_processor.md R145): a settling delay counts
up; when it elapses the gate turns on, with the output as the last gated note, if the output differs from that note, and the
gate-length timer starts, or restarts where the gate is still on (legato), and nothing is timed where the gate is off; a
running timer turns the gate off as soon as it has reached the current `GATELEN`, and else counts up; in the idle phase
nothing happens. Nothing else changes. -/
def Obligations.GateStepRule : Prop :=
  ∀ (g : BitVec 16) (r u : Channel), u = gateStep g r →
    (r.gph.toInt < -1 → u = { r with gph := u.gph } ∧ u.gph.toInt = r.gph.toInt + 1) ∧
    (r.gph.toInt = -1 →
      (r.out.toNat ≠ r.lgn.toNat →
        u = { r with gate := true, lgn := u.lgn, gph := 1 } ∧ u.lgn.toNat = r.out.toNat) ∧
      (r.out.toNat = r.lgn.toNat → r.gate = true → u = { r with gph := 1 }) ∧
      (r.out.toNat = r.lgn.toNat → r.gate = false → u = { r with gph := 0 })) ∧
    (r.gph.toInt = 0 → u = r) ∧
    (0 < r.gph.toInt → (g.toNat : Int) ≤ r.gph.toInt → u = { r with gate := false, gph := 0 }) ∧
    (0 < r.gph.toInt → r.gph.toInt < g.toNat → g.toNat ≤ 32767 →
      u = { r with gph := u.gph } ∧ u.gph.toInt = r.gph.toInt + 1)
end

