-- ==== Sys2Proof/Laws/Memory.lean ====
section
/-! SUPPORT. The laws of the bank memory: every operation keeps the canonical form, a write is read back, and a write
leaves every other address and every other bank alone. -/

namespace Sys2Proof.Machine

theorem Memory.sortedFrom_mono {lo lo' : Nat} (h : lo' ≤ lo) :
    ∀ {m : Memory}, Memory.sortedFrom lo m = true → Memory.sortedFrom lo' m = true
  | [], _ => rfl
  | (a, v) :: m, hs => by
    simp only [Memory.sortedFrom, Bool.and_eq_true, decide_eq_true_eq] at hs ⊢
    exact ⟨⟨⟨le_trans h hs.1.1.1, hs.1.1.2⟩, hs.1.2⟩, hs.2⟩

theorem Memory.sortedFrom_cons {lo a : Nat} {v : BitVec 8} {m : Memory} (hlo : lo ≤ a) (ha : a < Memory.size)
    (hm : Memory.sortedFrom (a + 1) m = true) : Memory.sortedFrom lo (Memory.cons a v m) = true := by
  unfold Memory.cons
  split
  · exact Memory.sortedFrom_mono (by omega) hm
  · next h => simp [Memory.sortedFrom, hlo, ha, h, hm]

theorem Memory.sortedFrom_writeByte {a : Nat} {v : BitVec 8} (ha : a < Memory.size) :
    ∀ {m : Memory} {lo : Nat}, lo ≤ a → Memory.sortedFrom lo m = true →
      Memory.sortedFrom lo (Memory.writeByte m a v) = true
  | [], _, hlo, _ => Memory.sortedFrom_cons hlo ha rfl
  | (b, w) :: m, lo, hlo, hs => by
    simp only [Memory.sortedFrom, Bool.and_eq_true, decide_eq_true_eq] at hs
    obtain ⟨⟨⟨h1, h2⟩, h3⟩, h4⟩ := hs
    unfold Memory.writeByte
    split
    · next hab =>
      exact Memory.sortedFrom_cons hlo ha (by simp [Memory.sortedFrom, h2, h3, h4, Nat.succ_le_of_lt hab])
    · split
      · next hab => exact Memory.sortedFrom_cons hlo ha (hab ▸ h4)
      · have hba : b + 1 ≤ a := by omega
        simp [Memory.sortedFrom, h1, h2, h3, Memory.sortedFrom_writeByte ha hba h4]

/-- Writing a byte keeps the canonical form. -/
theorem Memory.wf_writeByte {m : Memory} {a : Nat} {v : BitVec 8} (ha : a < Memory.size) (h : m.wf = true) :
    (m.writeByte a v).wf = true :=
  Memory.sortedFrom_writeByte ha (Nat.zero_le a) h

/-- `BankWrite` keeps the canonical form. -/
theorem Memory.wf_bankWrite {m : Memory} (b : Fin 12) (v : BitVec 16) (h : m.wf = true) : (m.bankWrite b v).wf = true := by
  have hb := b.isLt
  exact Memory.wf_writeByte (by unfold Memory.size; omega) (Memory.wf_writeByte (by unfold Memory.size; omega) h)

theorem Memory.wf_loadBanks (bank0 : Vector (BitVec 16) 12) : ∀ n, (Memory.loadBanks bank0 n).wf = true
  | 0 => rfl
  | n + 1 => by
    unfold Memory.loadBanks
    split
    · exact Memory.wf_bankWrite _ _ (Memory.wf_loadBanks bank0 n)
    · exact Memory.wf_loadBanks bank0 n

/-- The bank memory holding any `BANK0` has the canonical form. -/
theorem Memory.wf_ofBank0 (bank0 : Vector (BitVec 16) 12) : (Memory.ofBank0 bank0).wf = true := by
  unfold Memory.ofBank0
  exact Memory.wf_loadBanks bank0 12

/-- The memory of the reset state has the canonical form, whatever the parameters. -/
theorem State.resetWith_bank_wf (p : Params) : (State.resetWith p).bank.wf = true := by
  simp only [State.resetWith, Memory.wf_ofBank0]

theorem Memory.readByte_of_lt_sortedFrom {a : Nat} :
    ∀ {m : Memory} {lo : Nat}, a < lo → Memory.sortedFrom lo m = true → Memory.readByte m a = 0#8
  | [], _, _, _ => rfl
  | (b, w) :: m, lo, hlt, hs => by
    simp only [Memory.sortedFrom, Bool.and_eq_true, decide_eq_true_eq] at hs
    obtain ⟨⟨⟨h1, _⟩, _⟩, h4⟩ := hs
    have hne : a ≠ b := by omega
    simp only [Memory.readByte, if_neg hne]
    exact Memory.readByte_of_lt_sortedFrom (lo := b + 1) (by omega) h4

theorem Memory.readByte_cons_self {a lo : Nat} {v : BitVec 8} {m : Memory} (h : a < lo)
    (hs : Memory.sortedFrom lo m = true) : Memory.readByte (Memory.cons a v m) a = v := by
  unfold Memory.cons
  split
  · next hv => rw [hv]; exact Memory.readByte_of_lt_sortedFrom h hs
  · simp [Memory.readByte]

theorem Memory.readByte_cons_of_ne {a c : Nat} {v : BitVec 8} {m : Memory} (h : c ≠ a) :
    Memory.readByte (Memory.cons a v m) c = Memory.readByte m c := by
  unfold Memory.cons
  split
  · rfl
  · simp [Memory.readByte, h]

theorem Memory.readByte_writeByte_self_from {a : Nat} {v : BitVec 8} :
    ∀ {m : Memory} {lo : Nat}, Memory.sortedFrom lo m = true → Memory.readByte (Memory.writeByte m a v) a = v
  | [], _, _ => Memory.readByte_cons_self (Nat.lt_succ_self a) rfl
  | (b, w) :: m, lo, hs => by
    have hs' := hs
    simp only [Memory.sortedFrom, Bool.and_eq_true, decide_eq_true_eq] at hs
    obtain ⟨⟨⟨_, h2⟩, h3⟩, h4⟩ := hs
    unfold Memory.writeByte
    split
    · next hab =>
      exact Memory.readByte_cons_self (lo := b) hab (by simp [Memory.sortedFrom, h2, h3, h4])
    · split
      · next hab => exact Memory.readByte_cons_self (lo := b + 1) (by omega) h4
      · next hlt hne =>
        simp only [Memory.readByte, if_neg hne]
        exact Memory.readByte_writeByte_self_from h4

/-- A byte just written is read back. -/
theorem Memory.readByte_writeByte_self {m : Memory} {a : Nat} {v : BitVec 8} (h : m.wf = true) :
    (m.writeByte a v).readByte a = v :=
  Memory.readByte_writeByte_self_from h

/-- Writing a byte leaves every other byte alone. -/
theorem Memory.readByte_writeByte_of_ne {a c : Nat} {v : BitVec 8} (h : c ≠ a) :
    ∀ (m : Memory), (m.writeByte a v).readByte c = m.readByte c
  | [] => Memory.readByte_cons_of_ne h
  | (b, w) :: m => by
    unfold Memory.writeByte
    split
    · exact Memory.readByte_cons_of_ne h
    · split
      · next hab => rw [Memory.readByte_cons_of_ne h]; simp [Memory.readByte, ← hab, h]
      · simp only [Memory.readByte]
        split
        · rfl
        · exact Memory.readByte_writeByte_of_ne h m

theorem append_extract_halves (v : BitVec 16) : v.extractLsb' 8 8 ++ v.extractLsb' 0 8 = v := by
  apply BitVec.eq_of_getLsbD_eq
  intro i hi
  simp only [BitVec.getLsbD_append, BitVec.getLsbD_extractLsb']
  by_cases h : i < 8
  · simp [h]
  · have h2 : i - 8 < 8 := by omega
    have h3 : 8 + (i - 8) = i := by omega
    simp [h, h2, h3]

/-- A bank just written reads as the word written (20_memory.md R62). -/
theorem Memory.bankRead_bankWrite_self {m : Memory} (b : Fin 12) (v : BitVec 16) (h : m.wf = true) :
    (m.bankWrite b v).bankRead b = v := by
  have hb := b.isLt
  have h1 : (m.writeByte (2 * b.val) (v.extractLsb' 0 8)).wf = true :=
    Memory.wf_writeByte (by unfold Memory.size; omega) h
  unfold Memory.bankRead Memory.bankWrite
  rw [Memory.readByte_writeByte_self h1, Memory.readByte_writeByte_of_ne (by omega),
    Memory.readByte_writeByte_self h, append_extract_halves]

/-- A byte outside the two of bank `b` is unchanged by `BankWrite(b, v)`. -/
theorem Memory.readByte_bankWrite_of_ne (m : Memory) (b : Fin 12) (v : BitVec 16) {a : Nat} (h0 : a ≠ 2 * b.val)
    (h1 : a ≠ 2 * b.val + 1) : (m.bankWrite b v).readByte a = m.readByte a := by
  unfold Memory.bankWrite
  rw [Memory.readByte_writeByte_of_ne h1, Memory.readByte_writeByte_of_ne h0]

/-- Every other bank is unchanged by `BankWrite(b, v)`. -/
theorem Memory.bankRead_bankWrite_of_ne (m : Memory) {b c : Fin 12} (v : BitVec 16) (h : c ≠ b) :
    (m.bankWrite b v).bankRead c = m.bankRead c := by
  have hv : c.val ≠ b.val := fun e => h (Fin.ext e)
  unfold Memory.bankRead
  rw [Memory.readByte_bankWrite_of_ne m b v (by omega) (by omega),
    Memory.readByte_bankWrite_of_ne m b v (by omega) (by omega)]

end Sys2Proof.Machine
end

