-- ==== Sys2Proof/Laws/State.lean ====
section
/-! SUPPORT. Beside State: what each named update of it leaves in each field, one lemma a field, so that no later proof
unfolds a record update. -/

namespace Sys2Proof.Machine

/-! ### `markEdit` -/

@[simp] theorem markEdit_params (s : State) : (markEdit s).params = s.params := rfl
@[simp] theorem markEdit_cfg (s : State) : (markEdit s).cfg = s.cfg := rfl
@[simp] theorem markEdit_rscale (s : State) : (markEdit s).rscale = s.rscale := rfl
@[simp] theorem markEdit_gatelen (s : State) : (markEdit s).gatelen = s.gatelen := rfl
@[simp] theorem markEdit_ov (s : State) : (markEdit s).ov = s.ov := rfl
@[simp] theorem markEdit_ch0 (s : State) : (markEdit s).ch0 = s.ch0 := rfl
@[simp] theorem markEdit_ch1 (s : State) : (markEdit s).ch1 = s.ch1 := rfl
@[simp] theorem markEdit_auxlast0 (s : State) : (markEdit s).auxlast0 = s.auxlast0 := rfl
@[simp] theorem markEdit_auxlast1 (s : State) : (markEdit s).auxlast1 = s.auxlast1 := rfl
@[simp] theorem markEdit_kbdact (s : State) : (markEdit s).kbdact = s.kbdact := rfl
@[simp] theorem markEdit_kbdnote (s : State) : (markEdit s).kbdnote = s.kbdnote := rfl
@[simp] theorem markEdit_kbdtrig0 (s : State) : (markEdit s).kbdtrig0 = s.kbdtrig0 := rfl
@[simp] theorem markEdit_kbdtrig1 (s : State) : (markEdit s).kbdtrig1 = s.kbdtrig1 := rfl
@[simp] theorem markEdit_nextch (s : State) : (markEdit s).nextch = s.nextch := rfl
@[simp] theorem markEdit_ien (s : State) : (markEdit s).ien = s.ien := rfl
@[simp] theorem markEdit_pends (s : State) : (markEdit s).pends = s.pends := rfl
@[simp] theorem markEdit_pendh (s : State) : (markEdit s).pendh = s.pendh := rfl
@[simp] theorem markEdit_hact (s : State) : (markEdit s).hact = s.hact := rfl
@[simp] theorem markEdit_sdata (s : State) : (markEdit s).sdata = s.sdata := rfl
@[simp] theorem markEdit_savetmr (s : State) : (markEdit s).savetmr = BitVec.ofNat 16 s.params.saveDelay := rfl
@[simp] theorem markEdit_savepend (s : State) : (markEdit s).savepend = true := rfl
@[simp] theorem markEdit_overrun (s : State) : (markEdit s).overrun = s.overrun := rfl
@[simp] theorem markEdit_bank (s : State) : (markEdit s).bank = s.bank := rfl
@[simp] theorem markEdit_ports (s : State) : (markEdit s).ports = s.ports := rfl
@[simp] theorem markEdit_storageBusy (s : State) : (markEdit s).storageBusy = s.storageBusy := rfl
@[simp] theorem markEdit_input (s : State) : (markEdit s).input = s.input := rfl

/-! ### `answer` -/

@[simp] theorem answer_params (d : BitVec 16) (s : State) : (answer d s).params = s.params := rfl
@[simp] theorem answer_cfg (d : BitVec 16) (s : State) : (answer d s).cfg = s.cfg := rfl
@[simp] theorem answer_rscale (d : BitVec 16) (s : State) : (answer d s).rscale = s.rscale := rfl
@[simp] theorem answer_gatelen (d : BitVec 16) (s : State) : (answer d s).gatelen = s.gatelen := rfl
@[simp] theorem answer_ov (d : BitVec 16) (s : State) : (answer d s).ov = s.ov := rfl
@[simp] theorem answer_ch0 (d : BitVec 16) (s : State) : (answer d s).ch0 = s.ch0 := rfl
@[simp] theorem answer_ch1 (d : BitVec 16) (s : State) : (answer d s).ch1 = s.ch1 := rfl
@[simp] theorem answer_auxlast0 (d : BitVec 16) (s : State) : (answer d s).auxlast0 = s.auxlast0 := rfl
@[simp] theorem answer_auxlast1 (d : BitVec 16) (s : State) : (answer d s).auxlast1 = s.auxlast1 := rfl
@[simp] theorem answer_kbdact (d : BitVec 16) (s : State) : (answer d s).kbdact = s.kbdact := rfl
@[simp] theorem answer_kbdnote (d : BitVec 16) (s : State) : (answer d s).kbdnote = s.kbdnote := rfl
@[simp] theorem answer_kbdtrig0 (d : BitVec 16) (s : State) : (answer d s).kbdtrig0 = s.kbdtrig0 := rfl
@[simp] theorem answer_kbdtrig1 (d : BitVec 16) (s : State) : (answer d s).kbdtrig1 = s.kbdtrig1 := rfl
@[simp] theorem answer_nextch (d : BitVec 16) (s : State) : (answer d s).nextch = s.nextch := rfl
@[simp] theorem answer_ien (d : BitVec 16) (s : State) : (answer d s).ien = s.ien := rfl
@[simp] theorem answer_pends (d : BitVec 16) (s : State) : (answer d s).pends = s.pends := rfl
@[simp] theorem answer_pendh (d : BitVec 16) (s : State) : (answer d s).pendh = s.pendh := rfl
@[simp] theorem answer_hact (d : BitVec 16) (s : State) : (answer d s).hact = s.hact := rfl
@[simp] theorem answer_sdata (d : BitVec 16) (s : State) : (answer d s).sdata = s.sdata := rfl
@[simp] theorem answer_savetmr (d : BitVec 16) (s : State) : (answer d s).savetmr = s.savetmr := rfl
@[simp] theorem answer_savepend (d : BitVec 16) (s : State) : (answer d s).savepend = s.savepend := rfl
@[simp] theorem answer_overrun (d : BitVec 16) (s : State) : (answer d s).overrun = s.overrun := rfl
@[simp] theorem answer_bank (d : BitVec 16) (s : State) : (answer d s).bank = s.bank := rfl
@[simp] theorem answer_ports (d : BitVec 16) (s : State) : (answer d s).ports = { Ports.idle with rsp := some ⟨0, d⟩ } := rfl
@[simp] theorem answer_storageBusy (d : BitVec 16) (s : State) : (answer d s).storageBusy = s.storageBusy := rfl
@[simp] theorem answer_input (d : BitVec 16) (s : State) : (answer d s).input = s.input := rfl

/-! ### `refuseWith` -/

@[simp] theorem refuseWith_params (c : BitVec 2) (s : State) : (refuseWith c s).params = s.params := rfl
@[simp] theorem refuseWith_cfg (c : BitVec 2) (s : State) : (refuseWith c s).cfg = s.cfg := rfl
@[simp] theorem refuseWith_rscale (c : BitVec 2) (s : State) : (refuseWith c s).rscale = s.rscale := rfl
@[simp] theorem refuseWith_gatelen (c : BitVec 2) (s : State) : (refuseWith c s).gatelen = s.gatelen := rfl
@[simp] theorem refuseWith_ov (c : BitVec 2) (s : State) : (refuseWith c s).ov = s.ov := rfl
@[simp] theorem refuseWith_ch0 (c : BitVec 2) (s : State) : (refuseWith c s).ch0 = s.ch0 := rfl
@[simp] theorem refuseWith_ch1 (c : BitVec 2) (s : State) : (refuseWith c s).ch1 = s.ch1 := rfl
@[simp] theorem refuseWith_auxlast0 (c : BitVec 2) (s : State) : (refuseWith c s).auxlast0 = s.auxlast0 := rfl
@[simp] theorem refuseWith_auxlast1 (c : BitVec 2) (s : State) : (refuseWith c s).auxlast1 = s.auxlast1 := rfl
@[simp] theorem refuseWith_kbdact (c : BitVec 2) (s : State) : (refuseWith c s).kbdact = s.kbdact := rfl
@[simp] theorem refuseWith_kbdnote (c : BitVec 2) (s : State) : (refuseWith c s).kbdnote = s.kbdnote := rfl
@[simp] theorem refuseWith_kbdtrig0 (c : BitVec 2) (s : State) : (refuseWith c s).kbdtrig0 = s.kbdtrig0 := rfl
@[simp] theorem refuseWith_kbdtrig1 (c : BitVec 2) (s : State) : (refuseWith c s).kbdtrig1 = s.kbdtrig1 := rfl
@[simp] theorem refuseWith_nextch (c : BitVec 2) (s : State) : (refuseWith c s).nextch = s.nextch := rfl
@[simp] theorem refuseWith_ien (c : BitVec 2) (s : State) : (refuseWith c s).ien = s.ien := rfl
@[simp] theorem refuseWith_pends (c : BitVec 2) (s : State) : (refuseWith c s).pends = s.pends := rfl
@[simp] theorem refuseWith_pendh (c : BitVec 2) (s : State) : (refuseWith c s).pendh = s.pendh := rfl
@[simp] theorem refuseWith_hact (c : BitVec 2) (s : State) : (refuseWith c s).hact = s.hact := rfl
@[simp] theorem refuseWith_sdata (c : BitVec 2) (s : State) : (refuseWith c s).sdata = s.sdata := rfl
@[simp] theorem refuseWith_savetmr (c : BitVec 2) (s : State) : (refuseWith c s).savetmr = s.savetmr := rfl
@[simp] theorem refuseWith_savepend (c : BitVec 2) (s : State) : (refuseWith c s).savepend = s.savepend := rfl
@[simp] theorem refuseWith_overrun (c : BitVec 2) (s : State) : (refuseWith c s).overrun = s.overrun := rfl
@[simp] theorem refuseWith_bank (c : BitVec 2) (s : State) : (refuseWith c s).bank = s.bank := rfl
@[simp] theorem refuseWith_ports (c : BitVec 2) (s : State) : (refuseWith c s).ports = { Ports.idle with rsp := some ⟨c, 0⟩ } := rfl
@[simp] theorem refuseWith_storageBusy (c : BitVec 2) (s : State) : (refuseWith c s).storageBusy = s.storageBusy := rfl
@[simp] theorem refuseWith_input (c : BitVec 2) (s : State) : (refuseWith c s).input = s.input := rfl

/-! ### `recomputeScale` -/

@[simp] theorem recomputeScale_params (s : State) : (recomputeScale s).params = s.params := rfl
@[simp] theorem recomputeScale_cfg (s : State) : (recomputeScale s).cfg = s.cfg := rfl
@[simp] theorem recomputeScale_rscale (s : State) : (recomputeScale s).rscale = rot s.cfg.scale s.cfg.brot s.ov.arot := rfl
@[simp] theorem recomputeScale_gatelen (s : State) : (recomputeScale s).gatelen = s.gatelen := rfl
@[simp] theorem recomputeScale_ov (s : State) : (recomputeScale s).ov = s.ov := rfl
@[simp] theorem recomputeScale_ch0 (s : State) : (recomputeScale s).ch0 = s.ch0 := rfl
@[simp] theorem recomputeScale_ch1 (s : State) : (recomputeScale s).ch1 = s.ch1 := rfl
@[simp] theorem recomputeScale_auxlast0 (s : State) : (recomputeScale s).auxlast0 = s.auxlast0 := rfl
@[simp] theorem recomputeScale_auxlast1 (s : State) : (recomputeScale s).auxlast1 = s.auxlast1 := rfl
@[simp] theorem recomputeScale_kbdact (s : State) : (recomputeScale s).kbdact = s.kbdact := rfl
@[simp] theorem recomputeScale_kbdnote (s : State) : (recomputeScale s).kbdnote = s.kbdnote := rfl
@[simp] theorem recomputeScale_kbdtrig0 (s : State) : (recomputeScale s).kbdtrig0 = s.kbdtrig0 := rfl
@[simp] theorem recomputeScale_kbdtrig1 (s : State) : (recomputeScale s).kbdtrig1 = s.kbdtrig1 := rfl
@[simp] theorem recomputeScale_nextch (s : State) : (recomputeScale s).nextch = s.nextch := rfl
@[simp] theorem recomputeScale_ien (s : State) : (recomputeScale s).ien = s.ien := rfl
@[simp] theorem recomputeScale_pends (s : State) : (recomputeScale s).pends = s.pends := rfl
@[simp] theorem recomputeScale_pendh (s : State) : (recomputeScale s).pendh = s.pendh := rfl
@[simp] theorem recomputeScale_hact (s : State) : (recomputeScale s).hact = s.hact := rfl
@[simp] theorem recomputeScale_sdata (s : State) : (recomputeScale s).sdata = s.sdata := rfl
@[simp] theorem recomputeScale_savetmr (s : State) : (recomputeScale s).savetmr = s.savetmr := rfl
@[simp] theorem recomputeScale_savepend (s : State) : (recomputeScale s).savepend = s.savepend := rfl
@[simp] theorem recomputeScale_overrun (s : State) : (recomputeScale s).overrun = s.overrun := rfl
@[simp] theorem recomputeScale_bank (s : State) : (recomputeScale s).bank = s.bank := rfl
@[simp] theorem recomputeScale_ports (s : State) : (recomputeScale s).ports = s.ports := rfl
@[simp] theorem recomputeScale_storageBusy (s : State) : (recomputeScale s).storageBusy = s.storageBusy := rfl
@[simp] theorem recomputeScale_input (s : State) : (recomputeScale s).input = s.input := rfl

/-! ### `recomputeGate` -/

@[simp] theorem recomputeGate_params (s : State) : (recomputeGate s).params = s.params := rfl
@[simp] theorem recomputeGate_cfg (s : State) : (recomputeGate s).cfg = s.cfg := rfl
@[simp] theorem recomputeGate_rscale (s : State) : (recomputeGate s).rscale = s.rscale := rfl
@[simp] theorem recomputeGate_gatelen (s : State) : (recomputeGate s).gatelen = BitVec.ofInt 16 (gateLen s.params s.cfg.gli.toNat s.ov.gi.toInt s.ov.gr.toNat) := rfl
@[simp] theorem recomputeGate_ov (s : State) : (recomputeGate s).ov = s.ov := rfl
@[simp] theorem recomputeGate_ch0 (s : State) : (recomputeGate s).ch0 = s.ch0 := rfl
@[simp] theorem recomputeGate_ch1 (s : State) : (recomputeGate s).ch1 = s.ch1 := rfl
@[simp] theorem recomputeGate_auxlast0 (s : State) : (recomputeGate s).auxlast0 = s.auxlast0 := rfl
@[simp] theorem recomputeGate_auxlast1 (s : State) : (recomputeGate s).auxlast1 = s.auxlast1 := rfl
@[simp] theorem recomputeGate_kbdact (s : State) : (recomputeGate s).kbdact = s.kbdact := rfl
@[simp] theorem recomputeGate_kbdnote (s : State) : (recomputeGate s).kbdnote = s.kbdnote := rfl
@[simp] theorem recomputeGate_kbdtrig0 (s : State) : (recomputeGate s).kbdtrig0 = s.kbdtrig0 := rfl
@[simp] theorem recomputeGate_kbdtrig1 (s : State) : (recomputeGate s).kbdtrig1 = s.kbdtrig1 := rfl
@[simp] theorem recomputeGate_nextch (s : State) : (recomputeGate s).nextch = s.nextch := rfl
@[simp] theorem recomputeGate_ien (s : State) : (recomputeGate s).ien = s.ien := rfl
@[simp] theorem recomputeGate_pends (s : State) : (recomputeGate s).pends = s.pends := rfl
@[simp] theorem recomputeGate_pendh (s : State) : (recomputeGate s).pendh = s.pendh := rfl
@[simp] theorem recomputeGate_hact (s : State) : (recomputeGate s).hact = s.hact := rfl
@[simp] theorem recomputeGate_sdata (s : State) : (recomputeGate s).sdata = s.sdata := rfl
@[simp] theorem recomputeGate_savetmr (s : State) : (recomputeGate s).savetmr = s.savetmr := rfl
@[simp] theorem recomputeGate_savepend (s : State) : (recomputeGate s).savepend = s.savepend := rfl
@[simp] theorem recomputeGate_overrun (s : State) : (recomputeGate s).overrun = s.overrun := rfl
@[simp] theorem recomputeGate_bank (s : State) : (recomputeGate s).bank = s.bank := rfl
@[simp] theorem recomputeGate_ports (s : State) : (recomputeGate s).ports = s.ports := rfl
@[simp] theorem recomputeGate_storageBusy (s : State) : (recomputeGate s).storageBusy = s.storageBusy := rfl
@[simp] theorem recomputeGate_input (s : State) : (recomputeGate s).input = s.input := rfl

/-! ### `setScale` -/

@[simp] theorem setScale_params (v : BitVec 16) (s : State) : (setScale v s).params = s.params := rfl
@[simp] theorem setScale_cfg (v : BitVec 16) (s : State) : (setScale v s).cfg = { s.cfg with scale := v &&& 0xFFF0 } := rfl
@[simp] theorem setScale_rscale (v : BitVec 16) (s : State) : (setScale v s).rscale = rot (v &&& 0xFFF0) s.cfg.brot s.ov.arot := rfl
@[simp] theorem setScale_gatelen (v : BitVec 16) (s : State) : (setScale v s).gatelen = s.gatelen := rfl
@[simp] theorem setScale_ov (v : BitVec 16) (s : State) : (setScale v s).ov = s.ov := rfl
@[simp] theorem setScale_ch0 (v : BitVec 16) (s : State) : (setScale v s).ch0 = s.ch0 := rfl
@[simp] theorem setScale_ch1 (v : BitVec 16) (s : State) : (setScale v s).ch1 = s.ch1 := rfl
@[simp] theorem setScale_auxlast0 (v : BitVec 16) (s : State) : (setScale v s).auxlast0 = s.auxlast0 := rfl
@[simp] theorem setScale_auxlast1 (v : BitVec 16) (s : State) : (setScale v s).auxlast1 = s.auxlast1 := rfl
@[simp] theorem setScale_kbdact (v : BitVec 16) (s : State) : (setScale v s).kbdact = s.kbdact := rfl
@[simp] theorem setScale_kbdnote (v : BitVec 16) (s : State) : (setScale v s).kbdnote = s.kbdnote := rfl
@[simp] theorem setScale_kbdtrig0 (v : BitVec 16) (s : State) : (setScale v s).kbdtrig0 = s.kbdtrig0 := rfl
@[simp] theorem setScale_kbdtrig1 (v : BitVec 16) (s : State) : (setScale v s).kbdtrig1 = s.kbdtrig1 := rfl
@[simp] theorem setScale_nextch (v : BitVec 16) (s : State) : (setScale v s).nextch = s.nextch := rfl
@[simp] theorem setScale_ien (v : BitVec 16) (s : State) : (setScale v s).ien = s.ien := rfl
@[simp] theorem setScale_pends (v : BitVec 16) (s : State) : (setScale v s).pends = s.pends := rfl
@[simp] theorem setScale_pendh (v : BitVec 16) (s : State) : (setScale v s).pendh = s.pendh := rfl
@[simp] theorem setScale_hact (v : BitVec 16) (s : State) : (setScale v s).hact = s.hact := rfl
@[simp] theorem setScale_sdata (v : BitVec 16) (s : State) : (setScale v s).sdata = s.sdata := rfl
@[simp] theorem setScale_savetmr (v : BitVec 16) (s : State) : (setScale v s).savetmr = s.savetmr := rfl
@[simp] theorem setScale_savepend (v : BitVec 16) (s : State) : (setScale v s).savepend = s.savepend := rfl
@[simp] theorem setScale_overrun (v : BitVec 16) (s : State) : (setScale v s).overrun = s.overrun := rfl
@[simp] theorem setScale_bank (v : BitVec 16) (s : State) : (setScale v s).bank = s.bank := rfl
@[simp] theorem setScale_ports (v : BitVec 16) (s : State) : (setScale v s).ports = s.ports := rfl
@[simp] theorem setScale_storageBusy (v : BitVec 16) (s : State) : (setScale v s).storageBusy = s.storageBusy := rfl
@[simp] theorem setScale_input (v : BitVec 16) (s : State) : (setScale v s).input = s.input := rfl

/-! ### `recallBank` -/

@[simp] theorem recallBank_params (b : Fin 12) (s : State) : (recallBank b s).params = s.params := rfl
@[simp] theorem recallBank_cfg (b : Fin 12) (s : State) : (recallBank b s).cfg = { s.cfg with scale := s.bank.bankRead b &&& 0xFFF0, brot := 0 } := rfl
@[simp] theorem recallBank_rscale (b : Fin 12) (s : State) : (recallBank b s).rscale = rot (s.bank.bankRead b &&& 0xFFF0) 0 s.ov.arot := rfl
@[simp] theorem recallBank_gatelen (b : Fin 12) (s : State) : (recallBank b s).gatelen = s.gatelen := rfl
@[simp] theorem recallBank_ov (b : Fin 12) (s : State) : (recallBank b s).ov = s.ov := rfl
@[simp] theorem recallBank_ch0 (b : Fin 12) (s : State) : (recallBank b s).ch0 = s.ch0 := rfl
@[simp] theorem recallBank_ch1 (b : Fin 12) (s : State) : (recallBank b s).ch1 = s.ch1 := rfl
@[simp] theorem recallBank_auxlast0 (b : Fin 12) (s : State) : (recallBank b s).auxlast0 = s.auxlast0 := rfl
@[simp] theorem recallBank_auxlast1 (b : Fin 12) (s : State) : (recallBank b s).auxlast1 = s.auxlast1 := rfl
@[simp] theorem recallBank_kbdact (b : Fin 12) (s : State) : (recallBank b s).kbdact = s.kbdact := rfl
@[simp] theorem recallBank_kbdnote (b : Fin 12) (s : State) : (recallBank b s).kbdnote = s.kbdnote := rfl
@[simp] theorem recallBank_kbdtrig0 (b : Fin 12) (s : State) : (recallBank b s).kbdtrig0 = s.kbdtrig0 := rfl
@[simp] theorem recallBank_kbdtrig1 (b : Fin 12) (s : State) : (recallBank b s).kbdtrig1 = s.kbdtrig1 := rfl
@[simp] theorem recallBank_nextch (b : Fin 12) (s : State) : (recallBank b s).nextch = s.nextch := rfl
@[simp] theorem recallBank_ien (b : Fin 12) (s : State) : (recallBank b s).ien = s.ien := rfl
@[simp] theorem recallBank_pends (b : Fin 12) (s : State) : (recallBank b s).pends = s.pends := rfl
@[simp] theorem recallBank_pendh (b : Fin 12) (s : State) : (recallBank b s).pendh = s.pendh := rfl
@[simp] theorem recallBank_hact (b : Fin 12) (s : State) : (recallBank b s).hact = s.hact := rfl
@[simp] theorem recallBank_sdata (b : Fin 12) (s : State) : (recallBank b s).sdata = s.sdata := rfl
@[simp] theorem recallBank_savetmr (b : Fin 12) (s : State) : (recallBank b s).savetmr = s.savetmr := rfl
@[simp] theorem recallBank_savepend (b : Fin 12) (s : State) : (recallBank b s).savepend = s.savepend := rfl
@[simp] theorem recallBank_overrun (b : Fin 12) (s : State) : (recallBank b s).overrun = s.overrun := rfl
@[simp] theorem recallBank_bank (b : Fin 12) (s : State) : (recallBank b s).bank = s.bank := rfl
@[simp] theorem recallBank_ports (b : Fin 12) (s : State) : (recallBank b s).ports = s.ports := rfl
@[simp] theorem recallBank_storageBusy (b : Fin 12) (s : State) : (recallBank b s).storageBusy = s.storageBusy := rfl
@[simp] theorem recallBank_input (b : Fin 12) (s : State) : (recallBank b s).input = s.input := rfl

/-! ### `State.setChan` -/

@[simp] theorem setChan_params (c : Chan) (r : Channel) (s : State) : (s.setChan c r).params = s.params := by cases c <;> rfl
@[simp] theorem setChan_cfg (c : Chan) (r : Channel) (s : State) : (s.setChan c r).cfg = s.cfg := by cases c <;> rfl
@[simp] theorem setChan_rscale (c : Chan) (r : Channel) (s : State) : (s.setChan c r).rscale = s.rscale := by cases c <;> rfl
@[simp] theorem setChan_gatelen (c : Chan) (r : Channel) (s : State) : (s.setChan c r).gatelen = s.gatelen := by cases c <;> rfl
@[simp] theorem setChan_ov (c : Chan) (r : Channel) (s : State) : (s.setChan c r).ov = s.ov := by cases c <;> rfl
@[simp] theorem setChan_auxlast0 (c : Chan) (r : Channel) (s : State) : (s.setChan c r).auxlast0 = s.auxlast0 := by cases c <;> rfl
@[simp] theorem setChan_auxlast1 (c : Chan) (r : Channel) (s : State) : (s.setChan c r).auxlast1 = s.auxlast1 := by cases c <;> rfl
@[simp] theorem setChan_kbdact (c : Chan) (r : Channel) (s : State) : (s.setChan c r).kbdact = s.kbdact := by cases c <;> rfl
@[simp] theorem setChan_kbdnote (c : Chan) (r : Channel) (s : State) : (s.setChan c r).kbdnote = s.kbdnote := by cases c <;> rfl
@[simp] theorem setChan_kbdtrig0 (c : Chan) (r : Channel) (s : State) : (s.setChan c r).kbdtrig0 = s.kbdtrig0 := by cases c <;> rfl
@[simp] theorem setChan_kbdtrig1 (c : Chan) (r : Channel) (s : State) : (s.setChan c r).kbdtrig1 = s.kbdtrig1 := by cases c <;> rfl
@[simp] theorem setChan_nextch (c : Chan) (r : Channel) (s : State) : (s.setChan c r).nextch = s.nextch := by cases c <;> rfl
@[simp] theorem setChan_ien (c : Chan) (r : Channel) (s : State) : (s.setChan c r).ien = s.ien := by cases c <;> rfl
@[simp] theorem setChan_pends (c : Chan) (r : Channel) (s : State) : (s.setChan c r).pends = s.pends := by cases c <;> rfl
@[simp] theorem setChan_pendh (c : Chan) (r : Channel) (s : State) : (s.setChan c r).pendh = s.pendh := by cases c <;> rfl
@[simp] theorem setChan_hact (c : Chan) (r : Channel) (s : State) : (s.setChan c r).hact = s.hact := by cases c <;> rfl
@[simp] theorem setChan_sdata (c : Chan) (r : Channel) (s : State) : (s.setChan c r).sdata = s.sdata := by cases c <;> rfl
@[simp] theorem setChan_savetmr (c : Chan) (r : Channel) (s : State) : (s.setChan c r).savetmr = s.savetmr := by cases c <;> rfl
@[simp] theorem setChan_savepend (c : Chan) (r : Channel) (s : State) : (s.setChan c r).savepend = s.savepend := by cases c <;> rfl
@[simp] theorem setChan_overrun (c : Chan) (r : Channel) (s : State) : (s.setChan c r).overrun = s.overrun := by cases c <;> rfl
@[simp] theorem setChan_bank (c : Chan) (r : Channel) (s : State) : (s.setChan c r).bank = s.bank := by cases c <;> rfl
@[simp] theorem setChan_ports (c : Chan) (r : Channel) (s : State) : (s.setChan c r).ports = s.ports := by cases c <;> rfl
@[simp] theorem setChan_storageBusy (c : Chan) (r : Channel) (s : State) : (s.setChan c r).storageBusy = s.storageBusy := by cases c <;> rfl
@[simp] theorem setChan_input (c : Chan) (r : Channel) (s : State) : (s.setChan c r).input = s.input := by cases c <;> rfl

/-! ### `State.setAuxlast` -/

@[simp] theorem setAuxlast_params (a : Aux) (q : BitVec 7) (s : State) : (s.setAuxlast a q).params = s.params := by cases a <;> rfl
@[simp] theorem setAuxlast_cfg (a : Aux) (q : BitVec 7) (s : State) : (s.setAuxlast a q).cfg = s.cfg := by cases a <;> rfl
@[simp] theorem setAuxlast_rscale (a : Aux) (q : BitVec 7) (s : State) : (s.setAuxlast a q).rscale = s.rscale := by cases a <;> rfl
@[simp] theorem setAuxlast_gatelen (a : Aux) (q : BitVec 7) (s : State) : (s.setAuxlast a q).gatelen = s.gatelen := by cases a <;> rfl
@[simp] theorem setAuxlast_ov (a : Aux) (q : BitVec 7) (s : State) : (s.setAuxlast a q).ov = s.ov := by cases a <;> rfl
@[simp] theorem setAuxlast_ch0 (a : Aux) (q : BitVec 7) (s : State) : (s.setAuxlast a q).ch0 = s.ch0 := by cases a <;> rfl
@[simp] theorem setAuxlast_ch1 (a : Aux) (q : BitVec 7) (s : State) : (s.setAuxlast a q).ch1 = s.ch1 := by cases a <;> rfl
@[simp] theorem setAuxlast_kbdact (a : Aux) (q : BitVec 7) (s : State) : (s.setAuxlast a q).kbdact = s.kbdact := by cases a <;> rfl
@[simp] theorem setAuxlast_kbdnote (a : Aux) (q : BitVec 7) (s : State) : (s.setAuxlast a q).kbdnote = s.kbdnote := by cases a <;> rfl
@[simp] theorem setAuxlast_kbdtrig0 (a : Aux) (q : BitVec 7) (s : State) : (s.setAuxlast a q).kbdtrig0 = s.kbdtrig0 := by cases a <;> rfl
@[simp] theorem setAuxlast_kbdtrig1 (a : Aux) (q : BitVec 7) (s : State) : (s.setAuxlast a q).kbdtrig1 = s.kbdtrig1 := by cases a <;> rfl
@[simp] theorem setAuxlast_nextch (a : Aux) (q : BitVec 7) (s : State) : (s.setAuxlast a q).nextch = s.nextch := by cases a <;> rfl
@[simp] theorem setAuxlast_ien (a : Aux) (q : BitVec 7) (s : State) : (s.setAuxlast a q).ien = s.ien := by cases a <;> rfl
@[simp] theorem setAuxlast_pends (a : Aux) (q : BitVec 7) (s : State) : (s.setAuxlast a q).pends = s.pends := by cases a <;> rfl
@[simp] theorem setAuxlast_pendh (a : Aux) (q : BitVec 7) (s : State) : (s.setAuxlast a q).pendh = s.pendh := by cases a <;> rfl
@[simp] theorem setAuxlast_hact (a : Aux) (q : BitVec 7) (s : State) : (s.setAuxlast a q).hact = s.hact := by cases a <;> rfl
@[simp] theorem setAuxlast_sdata (a : Aux) (q : BitVec 7) (s : State) : (s.setAuxlast a q).sdata = s.sdata := by cases a <;> rfl
@[simp] theorem setAuxlast_savetmr (a : Aux) (q : BitVec 7) (s : State) : (s.setAuxlast a q).savetmr = s.savetmr := by cases a <;> rfl
@[simp] theorem setAuxlast_savepend (a : Aux) (q : BitVec 7) (s : State) : (s.setAuxlast a q).savepend = s.savepend := by cases a <;> rfl
@[simp] theorem setAuxlast_overrun (a : Aux) (q : BitVec 7) (s : State) : (s.setAuxlast a q).overrun = s.overrun := by cases a <;> rfl
@[simp] theorem setAuxlast_bank (a : Aux) (q : BitVec 7) (s : State) : (s.setAuxlast a q).bank = s.bank := by cases a <;> rfl
@[simp] theorem setAuxlast_ports (a : Aux) (q : BitVec 7) (s : State) : (s.setAuxlast a q).ports = s.ports := by cases a <;> rfl
@[simp] theorem setAuxlast_storageBusy (a : Aux) (q : BitVec 7) (s : State) : (s.setAuxlast a q).storageBusy = s.storageBusy := by cases a <;> rfl
@[simp] theorem setAuxlast_input (a : Aux) (q : BitVec 7) (s : State) : (s.setAuxlast a q).input = s.input := by cases a <;> rfl

/-! ### `State.setAuxm` -/

@[simp] theorem setAuxm_params (a : Aux) (m : AuxMode) (s : State) : (s.setAuxm a m).params = s.params := by cases a <;> rfl
@[simp] theorem setAuxm_rscale (a : Aux) (m : AuxMode) (s : State) : (s.setAuxm a m).rscale = s.rscale := by cases a <;> rfl
@[simp] theorem setAuxm_gatelen (a : Aux) (m : AuxMode) (s : State) : (s.setAuxm a m).gatelen = s.gatelen := by cases a <;> rfl
@[simp] theorem setAuxm_ov (a : Aux) (m : AuxMode) (s : State) : (s.setAuxm a m).ov = s.ov := by cases a <;> rfl
@[simp] theorem setAuxm_ch0 (a : Aux) (m : AuxMode) (s : State) : (s.setAuxm a m).ch0 = s.ch0 := by cases a <;> rfl
@[simp] theorem setAuxm_ch1 (a : Aux) (m : AuxMode) (s : State) : (s.setAuxm a m).ch1 = s.ch1 := by cases a <;> rfl
@[simp] theorem setAuxm_auxlast0 (a : Aux) (m : AuxMode) (s : State) : (s.setAuxm a m).auxlast0 = s.auxlast0 := by cases a <;> rfl
@[simp] theorem setAuxm_auxlast1 (a : Aux) (m : AuxMode) (s : State) : (s.setAuxm a m).auxlast1 = s.auxlast1 := by cases a <;> rfl
@[simp] theorem setAuxm_kbdact (a : Aux) (m : AuxMode) (s : State) : (s.setAuxm a m).kbdact = s.kbdact := by cases a <;> rfl
@[simp] theorem setAuxm_kbdnote (a : Aux) (m : AuxMode) (s : State) : (s.setAuxm a m).kbdnote = s.kbdnote := by cases a <;> rfl
@[simp] theorem setAuxm_kbdtrig0 (a : Aux) (m : AuxMode) (s : State) : (s.setAuxm a m).kbdtrig0 = s.kbdtrig0 := by cases a <;> rfl
@[simp] theorem setAuxm_kbdtrig1 (a : Aux) (m : AuxMode) (s : State) : (s.setAuxm a m).kbdtrig1 = s.kbdtrig1 := by cases a <;> rfl
@[simp] theorem setAuxm_nextch (a : Aux) (m : AuxMode) (s : State) : (s.setAuxm a m).nextch = s.nextch := by cases a <;> rfl
@[simp] theorem setAuxm_ien (a : Aux) (m : AuxMode) (s : State) : (s.setAuxm a m).ien = s.ien := by cases a <;> rfl
@[simp] theorem setAuxm_pends (a : Aux) (m : AuxMode) (s : State) : (s.setAuxm a m).pends = s.pends := by cases a <;> rfl
@[simp] theorem setAuxm_pendh (a : Aux) (m : AuxMode) (s : State) : (s.setAuxm a m).pendh = s.pendh := by cases a <;> rfl
@[simp] theorem setAuxm_hact (a : Aux) (m : AuxMode) (s : State) : (s.setAuxm a m).hact = s.hact := by cases a <;> rfl
@[simp] theorem setAuxm_sdata (a : Aux) (m : AuxMode) (s : State) : (s.setAuxm a m).sdata = s.sdata := by cases a <;> rfl
@[simp] theorem setAuxm_savetmr (a : Aux) (m : AuxMode) (s : State) : (s.setAuxm a m).savetmr = s.savetmr := by cases a <;> rfl
@[simp] theorem setAuxm_savepend (a : Aux) (m : AuxMode) (s : State) : (s.setAuxm a m).savepend = s.savepend := by cases a <;> rfl
@[simp] theorem setAuxm_overrun (a : Aux) (m : AuxMode) (s : State) : (s.setAuxm a m).overrun = s.overrun := by cases a <;> rfl
@[simp] theorem setAuxm_bank (a : Aux) (m : AuxMode) (s : State) : (s.setAuxm a m).bank = s.bank := by cases a <;> rfl
@[simp] theorem setAuxm_ports (a : Aux) (m : AuxMode) (s : State) : (s.setAuxm a m).ports = s.ports := by cases a <;> rfl
@[simp] theorem setAuxm_storageBusy (a : Aux) (m : AuxMode) (s : State) : (s.setAuxm a m).storageBusy = s.storageBusy := by cases a <;> rfl
@[simp] theorem setAuxm_input (a : Aux) (m : AuxMode) (s : State) : (s.setAuxm a m).input = s.input := by cases a <;> rfl

/-! ### `State.clearKbdtrig` -/

@[simp] theorem clearKbdtrig_params (c : Chan) (s : State) : (s.clearKbdtrig c).params = s.params := by cases c <;> rfl
@[simp] theorem clearKbdtrig_cfg (c : Chan) (s : State) : (s.clearKbdtrig c).cfg = s.cfg := by cases c <;> rfl
@[simp] theorem clearKbdtrig_rscale (c : Chan) (s : State) : (s.clearKbdtrig c).rscale = s.rscale := by cases c <;> rfl
@[simp] theorem clearKbdtrig_gatelen (c : Chan) (s : State) : (s.clearKbdtrig c).gatelen = s.gatelen := by cases c <;> rfl
@[simp] theorem clearKbdtrig_ov (c : Chan) (s : State) : (s.clearKbdtrig c).ov = s.ov := by cases c <;> rfl
@[simp] theorem clearKbdtrig_ch0 (c : Chan) (s : State) : (s.clearKbdtrig c).ch0 = s.ch0 := by cases c <;> rfl
@[simp] theorem clearKbdtrig_ch1 (c : Chan) (s : State) : (s.clearKbdtrig c).ch1 = s.ch1 := by cases c <;> rfl
@[simp] theorem clearKbdtrig_auxlast0 (c : Chan) (s : State) : (s.clearKbdtrig c).auxlast0 = s.auxlast0 := by cases c <;> rfl
@[simp] theorem clearKbdtrig_auxlast1 (c : Chan) (s : State) : (s.clearKbdtrig c).auxlast1 = s.auxlast1 := by cases c <;> rfl
@[simp] theorem clearKbdtrig_kbdact (c : Chan) (s : State) : (s.clearKbdtrig c).kbdact = s.kbdact := by cases c <;> rfl
@[simp] theorem clearKbdtrig_kbdnote (c : Chan) (s : State) : (s.clearKbdtrig c).kbdnote = s.kbdnote := by cases c <;> rfl
@[simp] theorem clearKbdtrig_nextch (c : Chan) (s : State) : (s.clearKbdtrig c).nextch = s.nextch := by cases c <;> rfl
@[simp] theorem clearKbdtrig_ien (c : Chan) (s : State) : (s.clearKbdtrig c).ien = s.ien := by cases c <;> rfl
@[simp] theorem clearKbdtrig_pends (c : Chan) (s : State) : (s.clearKbdtrig c).pends = s.pends := by cases c <;> rfl
@[simp] theorem clearKbdtrig_pendh (c : Chan) (s : State) : (s.clearKbdtrig c).pendh = s.pendh := by cases c <;> rfl
@[simp] theorem clearKbdtrig_hact (c : Chan) (s : State) : (s.clearKbdtrig c).hact = s.hact := by cases c <;> rfl
@[simp] theorem clearKbdtrig_sdata (c : Chan) (s : State) : (s.clearKbdtrig c).sdata = s.sdata := by cases c <;> rfl
@[simp] theorem clearKbdtrig_savetmr (c : Chan) (s : State) : (s.clearKbdtrig c).savetmr = s.savetmr := by cases c <;> rfl
@[simp] theorem clearKbdtrig_savepend (c : Chan) (s : State) : (s.clearKbdtrig c).savepend = s.savepend := by cases c <;> rfl
@[simp] theorem clearKbdtrig_overrun (c : Chan) (s : State) : (s.clearKbdtrig c).overrun = s.overrun := by cases c <;> rfl
@[simp] theorem clearKbdtrig_bank (c : Chan) (s : State) : (s.clearKbdtrig c).bank = s.bank := by cases c <;> rfl
@[simp] theorem clearKbdtrig_ports (c : Chan) (s : State) : (s.clearKbdtrig c).ports = s.ports := by cases c <;> rfl
@[simp] theorem clearKbdtrig_storageBusy (c : Chan) (s : State) : (s.clearKbdtrig c).storageBusy = s.storageBusy := by cases c <;> rfl
@[simp] theorem clearKbdtrig_input (c : Chan) (s : State) : (s.clearKbdtrig c).input = s.input := by cases c <;> rfl

/-! ### `strobePitch` -/

@[simp] theorem strobePitch_params (c : Chan) (s : State) : (strobePitch c s).params = s.params := by cases c <;> rfl
@[simp] theorem strobePitch_cfg (c : Chan) (s : State) : (strobePitch c s).cfg = s.cfg := by cases c <;> rfl
@[simp] theorem strobePitch_rscale (c : Chan) (s : State) : (strobePitch c s).rscale = s.rscale := by cases c <;> rfl
@[simp] theorem strobePitch_gatelen (c : Chan) (s : State) : (strobePitch c s).gatelen = s.gatelen := by cases c <;> rfl
@[simp] theorem strobePitch_ov (c : Chan) (s : State) : (strobePitch c s).ov = s.ov := by cases c <;> rfl
@[simp] theorem strobePitch_ch0 (c : Chan) (s : State) : (strobePitch c s).ch0 = s.ch0 := by cases c <;> rfl
@[simp] theorem strobePitch_ch1 (c : Chan) (s : State) : (strobePitch c s).ch1 = s.ch1 := by cases c <;> rfl
@[simp] theorem strobePitch_auxlast0 (c : Chan) (s : State) : (strobePitch c s).auxlast0 = s.auxlast0 := by cases c <;> rfl
@[simp] theorem strobePitch_auxlast1 (c : Chan) (s : State) : (strobePitch c s).auxlast1 = s.auxlast1 := by cases c <;> rfl
@[simp] theorem strobePitch_kbdact (c : Chan) (s : State) : (strobePitch c s).kbdact = s.kbdact := by cases c <;> rfl
@[simp] theorem strobePitch_kbdnote (c : Chan) (s : State) : (strobePitch c s).kbdnote = s.kbdnote := by cases c <;> rfl
@[simp] theorem strobePitch_kbdtrig0 (c : Chan) (s : State) : (strobePitch c s).kbdtrig0 = s.kbdtrig0 := by cases c <;> rfl
@[simp] theorem strobePitch_kbdtrig1 (c : Chan) (s : State) : (strobePitch c s).kbdtrig1 = s.kbdtrig1 := by cases c <;> rfl
@[simp] theorem strobePitch_nextch (c : Chan) (s : State) : (strobePitch c s).nextch = s.nextch := by cases c <;> rfl
@[simp] theorem strobePitch_ien (c : Chan) (s : State) : (strobePitch c s).ien = s.ien := by cases c <;> rfl
@[simp] theorem strobePitch_pends (c : Chan) (s : State) : (strobePitch c s).pends = s.pends := by cases c <;> rfl
@[simp] theorem strobePitch_pendh (c : Chan) (s : State) : (strobePitch c s).pendh = s.pendh := by cases c <;> rfl
@[simp] theorem strobePitch_hact (c : Chan) (s : State) : (strobePitch c s).hact = s.hact := by cases c <;> rfl
@[simp] theorem strobePitch_sdata (c : Chan) (s : State) : (strobePitch c s).sdata = s.sdata := by cases c <;> rfl
@[simp] theorem strobePitch_savetmr (c : Chan) (s : State) : (strobePitch c s).savetmr = s.savetmr := by cases c <;> rfl
@[simp] theorem strobePitch_savepend (c : Chan) (s : State) : (strobePitch c s).savepend = s.savepend := by cases c <;> rfl
@[simp] theorem strobePitch_overrun (c : Chan) (s : State) : (strobePitch c s).overrun = s.overrun := by cases c <;> rfl
@[simp] theorem strobePitch_bank (c : Chan) (s : State) : (strobePitch c s).bank = s.bank := by cases c <;> rfl
@[simp] theorem strobePitch_storageBusy (c : Chan) (s : State) : (strobePitch c s).storageBusy = s.storageBusy := by cases c <;> rfl
@[simp] theorem strobePitch_input (c : Chan) (s : State) : (strobePitch c s).input = s.input := by cases c <;> rfl

/-! ### `enterHousekeeping` -/

@[simp] theorem enterHousekeeping_params (s : State) : (enterHousekeeping s).params = s.params := rfl
@[simp] theorem enterHousekeeping_cfg (s : State) : (enterHousekeeping s).cfg = s.cfg := rfl
@[simp] theorem enterHousekeeping_rscale (s : State) : (enterHousekeeping s).rscale = s.rscale := rfl
@[simp] theorem enterHousekeeping_gatelen (s : State) : (enterHousekeeping s).gatelen = s.gatelen := rfl
@[simp] theorem enterHousekeeping_ov (s : State) : (enterHousekeeping s).ov = s.ov := rfl
@[simp] theorem enterHousekeeping_ch0 (s : State) : (enterHousekeeping s).ch0 = s.ch0 := rfl
@[simp] theorem enterHousekeeping_ch1 (s : State) : (enterHousekeeping s).ch1 = s.ch1 := rfl
@[simp] theorem enterHousekeeping_auxlast0 (s : State) : (enterHousekeeping s).auxlast0 = s.auxlast0 := rfl
@[simp] theorem enterHousekeeping_auxlast1 (s : State) : (enterHousekeeping s).auxlast1 = s.auxlast1 := rfl
@[simp] theorem enterHousekeeping_kbdact (s : State) : (enterHousekeeping s).kbdact = s.kbdact := rfl
@[simp] theorem enterHousekeeping_kbdnote (s : State) : (enterHousekeeping s).kbdnote = s.kbdnote := rfl
@[simp] theorem enterHousekeeping_kbdtrig0 (s : State) : (enterHousekeeping s).kbdtrig0 = s.kbdtrig0 := rfl
@[simp] theorem enterHousekeeping_kbdtrig1 (s : State) : (enterHousekeeping s).kbdtrig1 = s.kbdtrig1 := rfl
@[simp] theorem enterHousekeeping_nextch (s : State) : (enterHousekeeping s).nextch = s.nextch := rfl
@[simp] theorem enterHousekeeping_ien (s : State) : (enterHousekeeping s).ien = s.ien := rfl
@[simp] theorem enterHousekeeping_pends (s : State) : (enterHousekeeping s).pends = s.pends := rfl
@[simp] theorem enterHousekeeping_pendh (s : State) : (enterHousekeeping s).pendh = false := rfl
@[simp] theorem enterHousekeeping_hact (s : State) : (enterHousekeeping s).hact = true := rfl
@[simp] theorem enterHousekeeping_sdata (s : State) : (enterHousekeeping s).sdata = s.sdata := rfl
@[simp] theorem enterHousekeeping_savetmr (s : State) : (enterHousekeeping s).savetmr = (if s.savetmr = 0 then 0 else s.savetmr - 1) := rfl
@[simp] theorem enterHousekeeping_savepend (s : State) : (enterHousekeeping s).savepend = s.savepend := rfl
@[simp] theorem enterHousekeeping_overrun (s : State) : (enterHousekeeping s).overrun = s.overrun := rfl
@[simp] theorem enterHousekeeping_bank (s : State) : (enterHousekeeping s).bank = s.bank := rfl
@[simp] theorem enterHousekeeping_ports (s : State) : (enterHousekeeping s).ports = Ports.idle := rfl
@[simp] theorem enterHousekeeping_storageBusy (s : State) : (enterHousekeeping s).storageBusy = s.storageBusy := rfl
@[simp] theorem enterHousekeeping_input (s : State) : (enterHousekeeping s).input = s.input := rfl

/-! ### `leaveHousekeeping` -/

@[simp] theorem leaveHousekeeping_params (s : State) : (leaveHousekeeping s).params = s.params := rfl
@[simp] theorem leaveHousekeeping_cfg (s : State) : (leaveHousekeeping s).cfg = s.cfg := rfl
@[simp] theorem leaveHousekeeping_rscale (s : State) : (leaveHousekeeping s).rscale = s.rscale := rfl
@[simp] theorem leaveHousekeeping_gatelen (s : State) : (leaveHousekeeping s).gatelen = s.gatelen := rfl
@[simp] theorem leaveHousekeeping_ov (s : State) : (leaveHousekeeping s).ov = s.ov := rfl
@[simp] theorem leaveHousekeeping_ch0 (s : State) : (leaveHousekeeping s).ch0 = s.ch0 := rfl
@[simp] theorem leaveHousekeeping_ch1 (s : State) : (leaveHousekeeping s).ch1 = s.ch1 := rfl
@[simp] theorem leaveHousekeeping_auxlast0 (s : State) : (leaveHousekeeping s).auxlast0 = s.auxlast0 := rfl
@[simp] theorem leaveHousekeeping_auxlast1 (s : State) : (leaveHousekeeping s).auxlast1 = s.auxlast1 := rfl
@[simp] theorem leaveHousekeeping_kbdact (s : State) : (leaveHousekeeping s).kbdact = s.kbdact := rfl
@[simp] theorem leaveHousekeeping_kbdnote (s : State) : (leaveHousekeeping s).kbdnote = s.kbdnote := rfl
@[simp] theorem leaveHousekeeping_kbdtrig0 (s : State) : (leaveHousekeeping s).kbdtrig0 = s.kbdtrig0 := rfl
@[simp] theorem leaveHousekeeping_kbdtrig1 (s : State) : (leaveHousekeeping s).kbdtrig1 = s.kbdtrig1 := rfl
@[simp] theorem leaveHousekeeping_nextch (s : State) : (leaveHousekeeping s).nextch = s.nextch := rfl
@[simp] theorem leaveHousekeeping_ien (s : State) : (leaveHousekeeping s).ien = s.ien := rfl
@[simp] theorem leaveHousekeeping_pends (s : State) : (leaveHousekeeping s).pends = s.pends := rfl
@[simp] theorem leaveHousekeeping_pendh (s : State) : (leaveHousekeeping s).pendh = s.pendh := rfl
@[simp] theorem leaveHousekeeping_hact (s : State) : (leaveHousekeeping s).hact = false := rfl
@[simp] theorem leaveHousekeeping_sdata (s : State) : (leaveHousekeeping s).sdata = s.sdata := rfl
@[simp] theorem leaveHousekeeping_savetmr (s : State) : (leaveHousekeeping s).savetmr = s.savetmr := rfl
@[simp] theorem leaveHousekeeping_savepend (s : State) : (leaveHousekeeping s).savepend = s.savepend := rfl
@[simp] theorem leaveHousekeeping_overrun (s : State) : (leaveHousekeeping s).overrun = s.overrun := rfl
@[simp] theorem leaveHousekeeping_bank (s : State) : (leaveHousekeeping s).bank = s.bank := rfl
@[simp] theorem leaveHousekeeping_ports (s : State) : (leaveHousekeeping s).ports = s.ports := rfl
@[simp] theorem leaveHousekeeping_storageBusy (s : State) : (leaveHousekeeping s).storageBusy = s.storageBusy := rfl
@[simp] theorem leaveHousekeeping_input (s : State) : (leaveHousekeeping s).input = s.input := rfl

/-! ### `laterReset` -/

@[simp] theorem laterReset_params (s : State) : (laterReset s).params = s.params := rfl
@[simp] theorem laterReset_cfg (s : State) : (laterReset s).cfg = s.params.defaults := rfl
@[simp] theorem laterReset_rscale (s : State) : (laterReset s).rscale = rot s.params.defaults.scale s.params.defaults.brot 0 := rfl
@[simp] theorem laterReset_gatelen (s : State) : (laterReset s).gatelen = BitVec.ofInt 16 (gateLen s.params s.params.defaults.gli.toNat 0 0) := rfl
@[simp] theorem laterReset_ov (s : State) : (laterReset s).ov = Overlay.neutral := rfl
@[simp] theorem laterReset_ch0 (s : State) : (laterReset s).ch0 = Channel.reset := rfl
@[simp] theorem laterReset_ch1 (s : State) : (laterReset s).ch1 = Channel.reset := rfl
@[simp] theorem laterReset_auxlast0 (s : State) : (laterReset s).auxlast0 = 0 := rfl
@[simp] theorem laterReset_auxlast1 (s : State) : (laterReset s).auxlast1 = 0 := rfl
@[simp] theorem laterReset_kbdact (s : State) : (laterReset s).kbdact = false := rfl
@[simp] theorem laterReset_kbdnote (s : State) : (laterReset s).kbdnote = 0 := rfl
@[simp] theorem laterReset_kbdtrig0 (s : State) : (laterReset s).kbdtrig0 = false := rfl
@[simp] theorem laterReset_kbdtrig1 (s : State) : (laterReset s).kbdtrig1 = false := rfl
@[simp] theorem laterReset_nextch (s : State) : (laterReset s).nextch = 2 := rfl
@[simp] theorem laterReset_ien (s : State) : (laterReset s).ien = false := rfl
@[simp] theorem laterReset_pends (s : State) : (laterReset s).pends = false := rfl
@[simp] theorem laterReset_pendh (s : State) : (laterReset s).pendh = false := rfl
@[simp] theorem laterReset_hact (s : State) : (laterReset s).hact = false := rfl
@[simp] theorem laterReset_sdata (s : State) : (laterReset s).sdata = 0 := rfl
@[simp] theorem laterReset_savetmr (s : State) : (laterReset s).savetmr = 0 := rfl
@[simp] theorem laterReset_savepend (s : State) : (laterReset s).savepend = false := rfl
@[simp] theorem laterReset_overrun (s : State) : (laterReset s).overrun = false := rfl
@[simp] theorem laterReset_bank (s : State) : (laterReset s).bank = s.bank := rfl
@[simp] theorem laterReset_ports (s : State) : (laterReset s).ports = Ports.idle := rfl
@[simp] theorem laterReset_storageBusy (s : State) : (laterReset s).storageBusy = s.storageBusy := rfl
@[simp] theorem laterReset_input (s : State) : (laterReset s).input = s.input := rfl

/-! ### `State.consume` -/

@[simp] theorem consume_params (s : State) : (s.consume).params = s.params := rfl
@[simp] theorem consume_cfg (s : State) : (s.consume).cfg = s.cfg := rfl
@[simp] theorem consume_rscale (s : State) : (s.consume).rscale = s.rscale := rfl
@[simp] theorem consume_gatelen (s : State) : (s.consume).gatelen = s.gatelen := rfl
@[simp] theorem consume_ov (s : State) : (s.consume).ov = s.ov := rfl
@[simp] theorem consume_ch0 (s : State) : (s.consume).ch0 = s.ch0 := rfl
@[simp] theorem consume_ch1 (s : State) : (s.consume).ch1 = s.ch1 := rfl
@[simp] theorem consume_auxlast0 (s : State) : (s.consume).auxlast0 = s.auxlast0 := rfl
@[simp] theorem consume_auxlast1 (s : State) : (s.consume).auxlast1 = s.auxlast1 := rfl
@[simp] theorem consume_kbdact (s : State) : (s.consume).kbdact = s.kbdact := rfl
@[simp] theorem consume_kbdnote (s : State) : (s.consume).kbdnote = s.kbdnote := rfl
@[simp] theorem consume_kbdtrig0 (s : State) : (s.consume).kbdtrig0 = s.kbdtrig0 := rfl
@[simp] theorem consume_kbdtrig1 (s : State) : (s.consume).kbdtrig1 = s.kbdtrig1 := rfl
@[simp] theorem consume_nextch (s : State) : (s.consume).nextch = s.nextch := rfl
@[simp] theorem consume_ien (s : State) : (s.consume).ien = s.ien := rfl
@[simp] theorem consume_pends (s : State) : (s.consume).pends = s.pends := rfl
@[simp] theorem consume_pendh (s : State) : (s.consume).pendh = s.pendh := rfl
@[simp] theorem consume_hact (s : State) : (s.consume).hact = s.hact := rfl
@[simp] theorem consume_sdata (s : State) : (s.consume).sdata = s.sdata := rfl
@[simp] theorem consume_savetmr (s : State) : (s.consume).savetmr = s.savetmr := rfl
@[simp] theorem consume_savepend (s : State) : (s.consume).savepend = s.savepend := rfl
@[simp] theorem consume_overrun (s : State) : (s.consume).overrun = s.overrun := rfl
@[simp] theorem consume_bank (s : State) : (s.consume).bank = s.bank := rfl
@[simp] theorem consume_ports (s : State) : (s.consume).ports = s.ports := rfl
@[simp] theorem consume_storageBusy (s : State) : (s.consume).storageBusy = s.storageBusy := rfl
@[simp] theorem consume_input (s : State) : (s.consume).input = s.input.tail := rfl

/-! ### Reading back what an update wrote -/

@[simp] theorem chan_ch0 (s : State) : s.chan .ch0 = s.ch0 := rfl
@[simp] theorem chan_ch1 (s : State) : s.chan .ch1 = s.ch1 := rfl
@[simp] theorem chan_setChan_self (c : Chan) (r : Channel) (s : State) : (s.setChan c r).chan c = r := by
  cases c <;> rfl

theorem chan_setChan_of_ne {c d : Chan} (h : d ≠ c) (r : Channel) (s : State) : (s.setChan c r).chan d = s.chan d := by
  cases c <;> cases d <;> first | rfl | exact absurd rfl h

@[simp] theorem auxlast_setAuxlast_self (a : Aux) (q : BitVec 7) (s : State) : (s.setAuxlast a q).auxlast a = q := by
  cases a <;> rfl

theorem auxlast_setAuxlast_of_ne {a b : Aux} (h : b ≠ a) (q : BitVec 7) (s : State) :
    (s.setAuxlast a q).auxlast b = s.auxlast b := by
  cases a <;> cases b <;> first | rfl | exact absurd rfl h

@[simp] theorem auxm_setAuxm_self (a : Aux) (m : AuxMode) (s : State) : (s.setAuxm a m).auxm a = m := by cases a <;> rfl

theorem auxm_setAuxm_of_ne {a b : Aux} (h : b ≠ a) (m : AuxMode) (s : State) : (s.setAuxm a m).auxm b = s.auxm b := by
  cases a <;> cases b <;> first | rfl | exact absurd rfl h

@[simp] theorem kbdtrig_clearKbdtrig_self (c : Chan) (s : State) : (s.clearKbdtrig c).kbdtrig c = false := by
  cases c <;> rfl

theorem kbdtrig_clearKbdtrig_of_ne {c d : Chan} (h : d ≠ c) (s : State) :
    (s.clearKbdtrig c).kbdtrig d = s.kbdtrig d := by
  cases c <;> cases d <;> first | rfl | exact absurd rfl h

@[simp] theorem ovtr_setTr_self (o : Overlay) (a : Aux) (c : Chan) (v : BitVec 8) : (o.setTr a c v).ovtr a c = v := by
  cases a <;> cases c <;> rfl

@[simp] theorem ovof_setOf_self (o : Overlay) (a : Aux) (c : Chan) (v : BitVec 8) : (o.setOf a c v).ovof a c = v := by
  cases a <;> cases c <;> rfl

theorem ovtr_setTr_of_ne (o : Overlay) {a b : Aux} {c d : Chan} (h : ¬(b = a ∧ d = c)) (v : BitVec 8) :
    (o.setTr a c v).ovtr b d = o.ovtr b d := by
  cases a <;> cases b <;> cases c <;> cases d <;> first | rfl | exact absurd ⟨rfl, rfl⟩ h

theorem ovof_setOf_of_ne (o : Overlay) {a b : Aux} {c d : Chan} (h : ¬(b = a ∧ d = c)) (v : BitVec 8) :
    (o.setOf a c v).ovof b d = o.ovof b d := by
  cases a <;> cases b <;> cases c <;> cases d <;> first | rfl | exact absurd ⟨rfl, rfl⟩ h

end Sys2Proof.Machine
end

