-- ==== Sys2Proof/Laws/Ops.lean ====
section
/-! SUPPORT. One lemma for each shared operation that says what it can do, for later proofs to cite instead of unfolding
it: the operand forms, the derived registers, the overlay's release, the latches, one sub-step of an invocation each, and
the inversion of a step. -/

namespace Sys2Proof.Machine

/-! ### Operand forms -/

theorem range_eq_some {n : Int} {m : Note} : range n = some m ↔ n = m.toNat := by
  unfold range
  constructor
  · intro h
    split at h
    · have hm := (Option.some.inj h).symm
      subst hm
      rw [BitVec.toNat_ofInt]
      omega
    · cases h
  · intro h
    subst h
    have hm : m.toNat < 128 := m.isLt
    rw [if_pos (by omega)]
    simp

theorem range_eq_none {n : Int} : range n = none ↔ n < 0 ∨ 127 < n := by
  unfold range
  split <;> simp <;> omega

theorem range_of_note (m : Note) : range m.toNat = some m := range_eq_some.mpr rfl

theorem index12_of_lt {x : BitVec 4} (h : x.toNat < 12) : index12 x = some ⟨x.toNat, h⟩ := by simp [index12, h]

theorem index12_eq_none {x : BitVec 4} : index12 x = none ↔ below12 x = false := by simp [index12, below12]

theorem index12_ofNat (b : Fin 12) : index12 (BitVec.ofNat 4 b.val) = some b := by revert b; decide

theorem mod12_val (v : Int) : ((mod12 v).val : Int) = v % 12 := by simp [mod12]; omega

@[simp] theorem qmodeOf_bits (q : QMode) : qmodeOf (qmodeBits q) = some q := by cases q <;> rfl

theorem qmodeOf_eq_none : ∀ {m : BitVec 2}, qmodeOf m = none ↔ legalQMode m = false := by decide

theorem legalQMode_eq : ∀ {m : BitVec 2}, legalQMode m = true ↔ ∃ q, m = qmodeBits q := by
  intro m
  constructor
  · intro h
    cases hq : qmodeOf m with
    | none => rw [qmodeOf_eq_none, h] at hq; cases hq
    | some q =>
      refine ⟨q, ?_⟩
      revert m q
      decide +kernel
  · rintro ⟨q, rfl⟩
    cases q <;> rfl

@[simp] theorem auxModeOf_bits (m : AuxMode) : auxModeOf (auxModeBits m) = some m := by cases m <;> rfl

theorem auxModeOf_eq_none : ∀ {m : BitVec 8}, auxModeOf m = none ↔ legalAuxMode m = false := by decide +kernel

theorem auxModeOf_eq_some : ∀ {m : BitVec 8} {a : AuxMode}, auxModeOf m = some a → m = auxModeBits a := by
  intro m a
  revert m a
  decide +kernel

/-! ### Derived registers -/

theorem setScale_eq (v : BitVec 16) (s : State) :
    setScale v s = { s with
      cfg := { s.cfg with scale := v &&& 0xFFF0 }, rscale := rot (v &&& 0xFFF0) s.cfg.brot s.ov.arot } := rfl

theorem recallBank_eq (b : Fin 12) (s : State) :
    recallBank b s = { s with
      cfg := { s.cfg with scale := s.bank.bankRead b &&& 0xFFF0, brot := 0 },
      rscale := rot (s.bank.bankRead b &&& 0xFFF0) 0 s.ov.arot } := rfl

theorem recomputeScale_eq (s : State) :
    recomputeScale s = { s with rscale := rot s.cfg.scale s.cfg.brot s.ov.arot } := rfl

theorem recomputeGate_eq (s : State) :
    recomputeGate s = { s with
      gatelen := BitVec.ofInt 16 (gateLen s.params s.cfg.gli.toNat s.ov.gi.toInt s.ov.gr.toNat) } := rfl

theorem emptyScale_iff (w : BitVec 16) : emptyScale w = true ↔ ∀ k : Int, en w k = false := by
  constructor
  · intro h k
    have hw : w.extractLsb' 4 12 = 0#12 := by simpa [emptyScale] using h
    have hk : (k % 12).toNat < 12 := by omega
    have := congrArg (fun x => x.getLsbD (k % 12).toNat) hw
    simpa [en, hk] using this
  · intro h
    have hw : w.extractLsb' 4 12 = 0#12 := by
      ext i hi
      have := h i
      have hm : ((i : Int) % 12).toNat = i := by omega
      simpa [en, hm] using this
    simpa [emptyScale] using hw

/-! ### The overlay -/

theorem clearInput_ovtr (o : Overlay) (a b : Aux) (c : Chan) :
    (o.clearInput a).ovtr b c = if b = a then 0#8 else o.ovtr b c := by cases a <;> cases b <;> cases c <;> rfl

theorem clearInput_ovof (o : Overlay) (a b : Aux) (c : Chan) :
    (o.clearInput a).ovof b c = if b = a then 0#8 else o.ovof b c := by cases a <;> cases b <;> cases c <;> rfl

@[simp] theorem clearInput_arot (o : Overlay) (a : Aux) : (o.clearInput a).arot = o.arot := by cases a <;> rfl
@[simp] theorem clearInput_gi (o : Overlay) (a : Aux) : (o.clearInput a).gi = o.gi := by cases a <;> rfl
@[simp] theorem clearInput_gr (o : Overlay) (a : Aux) : (o.clearInput a).gr = o.gr := by cases a <;> rfl

/-- Everything `releaseAux` does: the overlay alone changes, to a cleared one with the shared registers released by mode. -/
theorem releaseAux_eq (a : Aux) (s : State) :
    releaseAux a s = { s with ov := { s.ov.clearInput a with
      arot := if s.auxm a = .rotate then 0 else s.ov.arot,
      gi := if s.auxm a = .gateLength then 0 else s.ov.gi,
      gr := if s.auxm a = .gateLength then 0 else s.ov.gr } } := by
  cases a <;> cases h : s.auxm _ <;> simp [releaseAux, h, Overlay.clearInput, Overlay.setTr, Overlay.setOf]

/-! ### Latches and the housekeeping level -/

theorem latchSample_cases (a : BitVec 12) (s : State) :
    (s.ien = false ∧ latchSample a s = s) ∨
      (s.ien = true ∧ latchSample a s = { s with overrun := s.overrun || s.pends, sdata := a, pends := true }) := by
  cases h : s.ien <;> simp [latchSample, h]

theorem latchTick_cases (s : State) :
    (s.ien = false ∧ latchTick s = s) ∨ (s.ien = true ∧ latchTick s = { s with pendh := true }) := by
  cases h : s.ien <;> simp [latchTick, h]

theorem enterHousekeeping_savetmr_toNat (s : State) :
    (enterHousekeeping s).savetmr.toNat = s.savetmr.toNat - 1 := by
  simp only [enterHousekeeping]
  split
  · next h => simp [h]
  · next h =>
    have : s.savetmr.toNat ≠ 0 := fun hz => h (BitVec.eq_of_toNat_eq hz)
    rw [BitVec.toNat_sub]
    have := s.savetmr.isLt
    simp
    omega

/-! ### The sub-steps of an invocation -/

/-- The hysteresis by its three cases. -/
theorem hysteresis_eq {up dn last : Nat} {raw h : Int}
    (hc : 8 * (last : Int) < raw ∧ h = raw - up ∨ raw < 8 * (last : Int) ∧ h = raw + dn ∨ raw = 8 * (last : Int) ∧ h = raw) :
    hysteresis up dn last raw = h := by
  unfold hysteresis
  split <;> [omega; (split <;> omega)]

/-- Everything `GateStep` can do. -/
theorem gateStep_cases (g : BitVec 16) (r : Channel) :
    (r.gph.toInt < 0 ∧ r.gph + 1 ≠ 0 ∧ gateStep g r = { r with gph := r.gph + 1 }) ∨
    (r.gph.toInt < 0 ∧ r.gph + 1 = 0 ∧ r.out.zeroExtend 8 ≠ r.lgn ∧
      gateStep g r = { r with gate := true, lgn := r.out.zeroExtend 8, gph := 1 }) ∨
    (r.gph.toInt < 0 ∧ r.gph + 1 = 0 ∧ r.out.zeroExtend 8 = r.lgn ∧
      gateStep g r = { r with gph := if r.gate then 1 else 0 }) ∨
    (0 < r.gph.toInt ∧ (g.toNat : Int) ≤ r.gph.toInt ∧ gateStep g r = { r with gate := false, gph := 0 }) ∨
    (0 < r.gph.toInt ∧ r.gph.toInt < (g.toNat : Int) ∧ gateStep g r = { r with gph := r.gph + 1 }) ∨
    (r.gph.toInt = 0 ∧ gateStep g r = r) := by
  unfold gateStep
  split
  · next h =>
    by_cases h0 : r.gph + 1 = 0
    · by_cases ho : r.out.zeroExtend 8 = r.lgn
      · right; right; left
        refine ⟨h, h0, ho, ?_⟩
        simp only [h0, if_true]
        simp [ho]
      · right; left
        refine ⟨h, h0, ho, ?_⟩
        simp only [h0, if_true]
        simp [ho]
    · left
      exact ⟨h, h0, if_neg h0⟩
  · next h =>
    split
    · next h1 =>
      split
      · next h2 => right; right; right; left; exact ⟨h1, h2, rfl⟩
      · next h2 => right; right; right; right; left; exact ⟨h1, by omega, rfl⟩
    · next h1 => right; right; right; right; right; exact ⟨by omega, rfl⟩

/-- Everything `TrigCountdown` can do. -/
theorem trigCountdown_cases (r : Channel) :
    (r.tdly = 0 ∧ trigCountdown r = (r, false)) ∨
      (r.tdly ≠ 0 ∧ trigCountdown r = ({ r with tdly := r.tdly - 1 }, decide (r.tdly = 1))) := by
  by_cases h : r.tdly = 0
  · exact .inl ⟨h, if_pos h⟩
  · exact .inr ⟨h, if_neg h⟩

/-- `TrigInput` leaves the output, the last gated note, the gate and its phase. -/
theorem trigInput_frame (p : Params) (tds : BitVec 4) (lvl : Bool) (r : Channel) :
    (trigInput p tds lvl r).out = r.out ∧ (trigInput p tds lvl r).lgn = r.lgn ∧ (trigInput p tds lvl r).gph = r.gph ∧
      (trigInput p tds lvl r).gate = r.gate ∧ (trigInput p tds lvl r).elatch = false := by
  unfold trigInput
  split <;> simp

/-- `TrigInput` when the trigger is inactive. -/
theorem trigInput_inactive (p : Params) (tds : BitVec 4) (r : Channel) (h : r.elatch = false) :
    trigInput p tds false r = { r with
      tcnt := if r.tcnt.toNat < p.trigTimeout then r.tcnt + 1 else r.tcnt,
      mode := if p.trigTimeout ≤ (if r.tcnt.toNat < p.trigTimeout then r.tcnt + 1 else r.tcnt).toNat then .freeRunning
        else r.mode } := by
  simp [trigInput, h]

/-- The three sub-steps before the candidate leave the output. -/
theorem channelInput_out (p : Params) (g : BitVec 16) (tds : BitVec 4) (lvl : Bool) (r : Channel) :
    (channelInput p g tds lvl r).1.out = r.out := by
  simp only [channelInput]
  rw [(trigInput_frame _ _ _ _).1]
  have hg : (gateStep g r).out = r.out := by
    rcases gateStep_cases g r with h | h | h | h | h | h
    · rw [h.2.2]
    · rw [h.2.2.2]
    · rw [h.2.2.2]
    · rw [h.2.2]
    · rw [h.2.2]
    · rw [h.2]
  rcases trigCountdown_cases (gateStep g r) with h | h <;> rw [h.2] <;> simpa using hg

/-- Everything the acceptance rule can do. -/
theorem acceptIf_cases (c : Chan) (k : Candidate) (s : State) :
    acceptIf c k s = s ∨ ∃ n, k.note = some n ∧ k.trig = true ∧ acceptIf c k s = accept c n s := by
  unfold acceptIf
  cases hk : k.note with
  | none => exact .inl rfl
  | some n =>
    cases ht : k.trig with
    | false => exact .inl rfl
    | true => exact .inr ⟨n, rfl, rfl, rfl⟩

/-- The part of an auxiliary invocation that follows a change of the quantized value, or nothing. -/
theorem auxChange_cases (a : Aux) (raw : BitVec 10) (s : State) :
    auxChange a raw s = s ∨
      ∃ q : Note, qSemi (auxHyst s.params (s.auxlast a) raw) = some q ∧ q ≠ s.auxlast a ∧
        auxChange a raw s =
          auxEffect a (s.auxm a) ((q.toNat : Int) - s.params.auxCenter) (s.setAuxlast a q) := by
  unfold auxChange
  cases hq : qSemi (auxHyst s.params (s.auxlast a) raw) with
  | none => exact .inl rfl
  | some q =>
    by_cases he : q = s.auxlast a
    · exact .inl (by simp [he])
    · exact .inr ⟨q, rfl, he, by simp [he]⟩

theorem auxChange_of_same (a : Aux) (raw : BitVec 10) (s : State)
    (h : qSemi (auxHyst s.params (s.auxlast a) raw) = none ∨
      qSemi (auxHyst s.params (s.auxlast a) raw) = some (s.auxlast a)) : auxChange a raw s = s := by
  unfold auxChange
  rcases h with h | h <;> simp [h]

/-! ### The step -/

/-- A word at a port answers a next state only where it decodes and its meaning answers that state. -/
theorem runWord_eq_next {p : PortWord} {s t : State} (h : runWord p s = .next t) :
    ∃ i, decode p = .ok i ∧ exec i s = .next t := by
  unfold runWord at h
  cases hd : decode p with
  | error e => simp [hd] at h
  | ok i => exact ⟨i, rfl, by simpa [hd] using h⟩

/-- A word at a port is refused where it does not decode, and where its meaning refuses it. -/
theorem runWord_eq_refused {p : PortWord} {s : State} {r : Refusal} (h : runWord p s = .refused r) :
    (∃ e, decode p = .error e ∧ r = refusalOf e) ∨ ∃ i, decode p = .ok i ∧ exec i s = .refused r := by
  unfold runWord at h
  cases hd : decode p with
  | error e =>
    simp only [hd, Host.Outcome.refused.injEq] at h
    exact .inl ⟨e, rfl, h.symm⟩
  | ok i => exact .inr ⟨i, rfl, by simpa [hd] using h⟩

/-- A step refuses only a word at a port. -/
theorem step_eq_refused {s : State} {r : Refusal} (h : step s = .refused r) :
    (∃ w, nextAction s = .event w ∧ runWord w s.consume = .refused r) ∨
    ∃ w, nextAction s = .command w ∧ runWord (.cmd w) s.consume = .refused r := by
  unfold step at h
  cases ha : nextAction s with
  | event w => exact .inl ⟨w, rfl, by simpa [ha, perform] using h⟩
  | command w => exact .inr ⟨w, rfl, by simpa [ha, perform] using h⟩
  | storage b => simp [ha, perform] at h
  | reset => simp [ha, perform] at h
  | sdisp => simp [ha, perform] at h
  | hdisp => simp [ha, perform] at h
  | wait => simp [ha, perform] at h

theorem afterRefusal_of_code {r : Refusal} {code : BitVec 2} (h : refusalCode r = some code) (s : State) :
    afterRefusal r s = refuseWith code s.consume := by simp [afterRefusal, h]

/-- Everything a step can do, by its action. -/
theorem step_eq_next {s t : State} (h : step s = .next t) :
    (∃ b, nextAction s = .storage b ∧ t = { s.consume with storageBusy := b }) ∨
    (nextAction s = .reset ∧ t = laterReset s.consume) ∨
    (∃ w, nextAction s = .event w ∧ runWord w s.consume = .next t) ∨
    (nextAction s = .sdisp ∧ t = serveSample s.consumeQuiet) ∨
    (nextAction s = .hdisp ∧ t = enterHousekeeping s.consumeQuiet) ∨
    (∃ w, nextAction s = .command w ∧ runWord (.cmd w) s.consume = .next t) ∨
    (nextAction s = .wait ∧ t = s.consumeQuiet) := by
  unfold step at h
  cases ha : nextAction s with
  | storage b => simp only [ha, perform, Host.Outcome.next.injEq] at h; exact .inl ⟨b, rfl, h.symm⟩
  | reset => simp only [ha, perform, Host.Outcome.next.injEq] at h; exact .inr (.inl ⟨rfl, h.symm⟩)
  | event w => simp only [ha, perform] at h; exact .inr (.inr (.inl ⟨w, rfl, h⟩))
  | sdisp => simp only [ha, perform, Host.Outcome.next.injEq] at h; exact .inr (.inr (.inr (.inl ⟨rfl, h.symm⟩)))
  | hdisp => simp only [ha, perform, Host.Outcome.next.injEq] at h; exact .inr (.inr (.inr (.inr (.inl ⟨rfl, h.symm⟩))))
  | command w => simp only [ha, perform] at h; exact .inr (.inr (.inr (.inr (.inr (.inl ⟨w, rfl, h⟩)))))
  | wait =>
    simp only [ha, perform, Host.Outcome.next.injEq] at h
    exact .inr (.inr (.inr (.inr (.inr (.inr ⟨rfl, h.symm⟩)))))

/-- Using up a quiet point changes the environment's stream alone. -/
theorem consumeQuiet_eq (s : State) : s.consumeQuiet = { s with input := s.consumeQuiet.input } := by
  unfold State.consumeQuiet
  split <;> rfl

end Sys2Proof.Machine
end

