-- ==== Sys2Proof/Laws/PerInstr.lean ====
section
/-! SUPPORT. Statements made instruction by instruction. The family `EncodedRow`: the word the encoder writes lies in the row
of the opcode map (30_encoding.md R85) that carries the instruction's own mnemonic; an event's word goes to its event port. -/

namespace Sys2Proof.Laws

/-- The encoder's word is a command word in the instruction's own row of the opcode map, or a word at the event port the
instruction belongs to (30_encoding.md R80, R85). -/
def EncodedRow.Statement (i : Instr) : Prop :=
  match encode i with
  | .cmd w => ∃ r ∈ opcodeMap, r.mnemonic = i.mnemonic ∧ r.selects w = true
  | .adc _ => i.mnemonic = "ADCDONE"
  | .tick => i.mnemonic = "HKTICK"

/-- A word with given fields lies in a row if each field does. -/
theorem selects_fields (r : OpcodeRow) (op ix : BitVec 4) (d : BitVec 16)
    (hop : op &&& r.mask.extractLsb' 20 4 = r.pattern.extractLsb' 20 4)
    (hix : ix &&& r.mask.extractLsb' 16 4 = r.pattern.extractLsb' 16 4)
    (hd : d &&& r.mask.extractLsb' 0 16 = r.pattern.extractLsb' 0 16) : r.selects (op ++ ix ++ d) = true := by
  have key : (op ++ ix ++ d) &&& r.mask = r.pattern := by
    apply BitVec.eq_of_getLsbD_eq
    intro i hi
    simp only [BitVec.getLsbD_and, BitVec.getLsbD_append]
    by_cases h1 : i < 16
    · have := congrArg (fun x => x.getLsbD i) hd
      simpa [h1] using this
    · by_cases h2 : i - 16 < 4
      · have := congrArg (fun x => x.getLsbD (i - 16)) hix
        have e : 16 + (i - 16) = i := by omega
        simpa [h1, h2, e] using this
      · have h3 : i - 16 - 4 < 4 := by omega
        have := congrArg (fun x => x.getLsbD (i - 16 - 4)) hop
        have e : 20 + (i - 16 - 4) = i := by omega
        simpa [h1, h2, h3, e] using this
  simp [OpcodeRow.selects, key]

theorem EncodedRow.nop : EncodedRow.Statement .nop := by
  refine ⟨⟨"NOP", 0x000000, 0xFFFFFF⟩, by simp [opcodeMap], rfl, selects_fields _ _ _ _ ?_ ?_ ?_⟩ <;> decide

theorem EncodedRow.toggle (k : BitVec 4) : EncodedRow.Statement (.toggle k) := by
  refine ⟨⟨"TOGGLE", 0x100000, 0xF0FFFF⟩, by simp [opcodeMap], rfl, selects_fields _ _ _ _ ?_ ?_ ?_⟩ <;>
    revert k <;> decide +kernel

theorem EncodedRow.recall (b : BitVec 4) : EncodedRow.Statement (.recall b) := by
  refine ⟨⟨"RECALL", 0x200000, 0xF0FFFF⟩, by simp [opcodeMap], rfl, selects_fields _ _ _ _ ?_ ?_ ?_⟩ <;>
    revert b <;> decide +kernel

theorem EncodedRow.savebank (b : BitVec 4) : EncodedRow.Statement (.savebank b) := by
  refine ⟨⟨"SAVEBANK", 0x300000, 0xF0FFFF⟩, by simp [opcodeMap], rfl, selects_fields _ _ _ _ ?_ ?_ ?_⟩ <;>
    revert b <;> decide +kernel

theorem EncodedRow.setscale (v : BitVec 16) : EncodedRow.Statement (.setscale v) := by
  refine ⟨⟨"SETSCALE", 0x400000, 0xFF0000⟩, by simp [opcodeMap], rfl, selects_fields _ _ _ _ ?_ ?_ ?_⟩
  · decide
  · decide
  · simp

theorem EncodedRow.setgli (i : BitVec 4) : EncodedRow.Statement (.setgli i) := by
  refine ⟨⟨"SETGLI", 0x410000, 0xFFFFF0⟩, by simp [opcodeMap], rfl, selects_fields _ _ _ _ ?_ ?_ ?_⟩ <;>
    revert i <;> decide +kernel

theorem EncodedRow.setrot (r : BitVec 4) : EncodedRow.Statement (.setrot r) := by
  refine ⟨⟨"SETROT", 0x420000, 0xFFFFF0⟩, by simp [opcodeMap], rfl, selects_fields _ _ _ _ ?_ ?_ ?_⟩ <;>
    revert r <;> decide +kernel

theorem EncodedRow.settrg (v : BitVec 8) : EncodedRow.Statement (.settrg v) := by
  refine ⟨⟨"SETTRG", 0x430000, 0xFFFF00⟩, by simp [opcodeMap], rfl, selects_fields _ _ _ _ ?_ ?_ ?_⟩ <;>
    revert v <;> decide +kernel

theorem EncodedRow.settrc (v : BitVec 8) : EncodedRow.Statement (.settrc v) := by
  refine ⟨⟨"SETTRC", 0x440000, 0xFFFF00⟩, by simp [opcodeMap], rfl, selects_fields _ _ _ _ ?_ ?_ ?_⟩ <;>
    revert v <;> decide +kernel

theorem EncodedRow.setofg (v : BitVec 8) : EncodedRow.Statement (.setofg v) := by
  refine ⟨⟨"SETOFG", 0x450000, 0xFFFF00⟩, by simp [opcodeMap], rfl, selects_fields _ _ _ _ ?_ ?_ ?_⟩ <;>
    revert v <;> decide +kernel

theorem EncodedRow.setofc (v : BitVec 8) : EncodedRow.Statement (.setofc v) := by
  refine ⟨⟨"SETOFC", 0x460000, 0xFFFF00⟩, by simp [opcodeMap], rfl, selects_fields _ _ _ _ ?_ ?_ ?_⟩ <;>
    revert v <;> decide +kernel

theorem EncodedRow.setleg (f : Bool) : EncodedRow.Statement (.setleg f) := by
  refine ⟨⟨"SETLEG", 0x470000, 0xFFFFFE⟩, by simp [opcodeMap], rfl, selects_fields _ _ _ _ ?_ ?_ ?_⟩ <;>
    revert f <;> decide +kernel

theorem EncodedRow.setqm (m : BitVec 2) : EncodedRow.Statement (.setqm m) := by
  refine ⟨⟨"SETQM", 0x480000, 0xFFFFFC⟩, by simp [opcodeMap], rfl, selects_fields _ _ _ _ ?_ ?_ ?_⟩ <;>
    revert m <;> decide +kernel

theorem EncodedRow.settds (d : BitVec 4) : EncodedRow.Statement (.settds d) := by
  refine ⟨⟨"SETTDS", 0x490000, 0xFFFFF0⟩, by simp [opcodeMap], rfl, selects_fields _ _ _ _ ?_ ?_ ?_⟩ <;>
    revert d <;> decide +kernel

theorem EncodedRow.setauxm (a : Aux) (m : BitVec 8) : EncodedRow.Statement (.setauxm a m) := by
  refine ⟨⟨"SETAUXM", 0x500000, 0xFEFF00⟩, by simp [opcodeMap], rfl, selects_fields _ _ _ _ ?_ ?_ ?_⟩ <;>
    revert m <;> cases a <;> decide +kernel

theorem EncodedRow.kbdoff : EncodedRow.Statement .kbdoff := by
  refine ⟨⟨"KBDOFF", 0x600000, 0xFFFFFF⟩, by simp [opcodeMap], rfl, selects_fields _ _ _ _ ?_ ?_ ?_⟩ <;> decide

theorem EncodedRow.kbdon : EncodedRow.Statement .kbdon := by
  refine ⟨⟨"KBDON", 0x610000, 0xFFFFFF⟩, by simp [opcodeMap], rfl, selects_fields _ _ _ _ ?_ ?_ ?_⟩ <;> decide

theorem EncodedRow.kbdnote (o : BitVec 4) (n : BitVec 4) : EncodedRow.Statement (.kbdnote o n) := by
  refine ⟨⟨"KBDNOTE", 0x620000, 0xFFFF00⟩, by simp [opcodeMap], rfl, selects_fields _ _ _ _ ?_ ?_ ?_⟩ <;>
    revert o n <;> decide +kernel

theorem EncodedRow.trigedge (c : Chan) : EncodedRow.Statement (.trigedge c) := by
  refine ⟨⟨"TRIGEDGE", 0x700000, 0xFEFFFF⟩, by simp [opcodeMap], rfl, selects_fields _ _ _ _ ?_ ?_ ?_⟩ <;>
    cases c <;> decide +kernel

theorem EncodedRow.hret : EncodedRow.Statement .hret := by
  refine ⟨⟨"HRET", 0x800000, 0xFFFFFF⟩, by simp [opcodeMap], rfl, selects_fields _ _ _ _ ?_ ?_ ?_⟩ <;> decide

theorem EncodedRow.commit : EncodedRow.Statement .commit := by
  refine ⟨⟨"COMMIT", 0x900000, 0xFFFFFF⟩, by simp [opcodeMap], rfl, selects_fields _ _ _ _ ?_ ?_ ?_⟩ <;> decide

theorem EncodedRow.start : EncodedRow.Statement .start := by
  refine ⟨⟨"START", 0xA00000, 0xFFFFFF⟩, by simp [opcodeMap], rfl, selects_fields _ _ _ _ ?_ ?_ ?_⟩ <;> decide

theorem EncodedRow.cfgdef : EncodedRow.Statement .cfgdef := by
  refine ⟨⟨"CFGDEF", 0xB00000, 0xFFFFFF⟩, by simp [opcodeMap], rfl, selects_fields _ _ _ _ ?_ ?_ ?_⟩ <;> decide

theorem EncodedRow.rdreg (addr : BitVec 8) : EncodedRow.Statement (.rdreg addr) := by
  refine ⟨⟨"RDREG", 0xC00000, 0xFFFF00⟩, by simp [opcodeMap], rfl, selects_fields _ _ _ _ ?_ ?_ ?_⟩ <;>
    revert addr <;> decide +kernel

theorem EncodedRow.adcdone (t1 t0 : Bool) (raw : BitVec 10) : EncodedRow.Statement (.adcdone t1 t0 raw) := rfl

theorem EncodedRow.hktick : EncodedRow.Statement .hktick := rfl

end Sys2Proof.Laws
end

