-- ==== Sys2Proof/Tests/Slice0.lean ====
section
/-! SUPPORT. Tests whose expected values come from the spec's own words, tables and examples (the rule or the section of
95_test_vectors.md is named beside each), and a witness for each statement that has hypotheses. -/

namespace Sys2Proof.Tests

open Sys2Proof Sys2Proof.Machine

/-! ### Ill-formed terms: one for each check of 30_encoding.md R86 -/

theorem test_ill_formed_toggle : Instr.wf (.toggle 12) = false := by decide
theorem test_ill_formed_recall : Instr.wf (.recall 15) = false := by decide
theorem test_ill_formed_savebank : Instr.wf (.savebank 12) = false := by decide
theorem test_ill_formed_setgli : Instr.wf (.setgli 12) = false := by decide
theorem test_ill_formed_setrot : Instr.wf (.setrot 12) = false := by decide
theorem test_ill_formed_settds : Instr.wf (.settds 12) = false := by decide
theorem test_ill_formed_setqm : Instr.wf (.setqm 3) = false := by decide
theorem test_ill_formed_setauxm : Instr.wf (.setauxm .in0 7) = false ∧ Instr.wf (.setauxm .in1 254) = false := by decide
theorem test_ill_formed_kbdnote : Instr.wf (.kbdnote 4 12) = false := by decide

/-! ### Decoding: words of 95_test_vectors.md section 3.1, 30_encoding.md R92 -/

theorem test_decode_nop : decodeTableWord 24 0x000000 = some .nop := by decide
theorem test_decode_toggle : decodeTableWord 24 0x1B0000 = some (.toggle 11) := by decide
theorem test_decode_recall : decodeTableWord 24 0x230000 = some (.recall 3) := by decide
theorem test_decode_savebank : decodeTableWord 24 0x3B0000 = some (.savebank 11) := by decide
theorem test_decode_setscale : decodeTableWord 24 0x40AB50 = some (.setscale 0xAB50) := by decide
theorem test_decode_setgli : decodeTableWord 24 0x410003 = some (.setgli 3) := by decide
theorem test_decode_setrot : decodeTableWord 24 0x420002 = some (.setrot 2) := by decide
theorem test_decode_settrg : decodeTableWord 24 0x4300F4 = some (.settrg (BitVec.ofInt 8 (-12))) := by decide
theorem test_decode_settrc : decodeTableWord 24 0x4400FB = some (.settrc (BitVec.ofInt 8 (-5))) := by decide
theorem test_decode_setofg : decodeTableWord 24 0x4500C4 = some (.setofg (BitVec.ofInt 8 (-60))) := by decide
theorem test_decode_setofc : decodeTableWord 24 0x460080 = some (.setofc (BitVec.ofInt 8 (-128))) := by decide
theorem test_decode_setleg : decodeTableWord 24 0x470001 = some (.setleg true) := by decide
theorem test_decode_setqm : decodeTableWord 24 0x480002 = some (.setqm (qmodeBits .equal)) := by decide
theorem test_decode_settds : decodeTableWord 24 0x490003 = some (.settds 3) := by decide
theorem test_decode_setauxm : decodeTableWord 24 0x510006 = some (.setauxm .in1 (auxModeBits .scaleRecall)) := by decide
theorem test_decode_kbdoff : decodeTableWord 24 0x600000 = some .kbdoff := by decide
theorem test_decode_kbdon : decodeTableWord 24 0x610000 = some .kbdon := by decide
theorem test_decode_kbdnote : decodeTableWord 24 0x6200A8 = some (.kbdnote 10 8) := by decide
theorem test_decode_trigedge : decodeTableWord 24 0x710000 = some (.trigedge .ch1) := by decide
theorem test_decode_hret : decodeTableWord 24 0x800000 = some .hret := by decide
theorem test_decode_commit : decodeTableWord 24 0x900000 = some .commit := by decide
theorem test_decode_start : decodeTableWord 24 0xA00000 = some .start := by decide
theorem test_decode_cfgdef : decodeTableWord 24 0xB00000 = some .cfgdef := by decide
theorem test_decode_rdreg : decodeTableWord 24 0xC00010 = some (.rdreg 0x10) := by decide
theorem test_decode_adcdone : decodeTableWord 16 0xA05 = some (.adcdone true false 517) := by decide
theorem test_decode_hktick : decodeTableWord 0 0 = some .hktick := by decide

/-- The refusals of 95_test_vectors.md section 3.1 that decoding decides. -/
theorem test_decode_illegal :
    [0xD00000#24, 0xE12345, 0xFFFFFF, 0x010000, 0x100001, 0x420010, 0x4A0000, 0x430100, 0x520000, 0x620100, 0x610001,
      0x630000, 0x720000, 0xC00100, 0x800001].all
      (fun w => match decode (.cmd w) with | .error .illegal => true | _ => false) = true := by decide

theorem test_decode_operand :
    [0x1C0000#24, 0x2F0000, 0x42000C, 0x480003, 0x500007, 0x62004C].all
      (fun w => match decode (.cmd w) with | .error .operand => true | _ => false) = true := by decide

/-- The rows of the opcode map do not overlap: two of them always disagree on a bit both require (30_encoding.md R85). -/
theorem test_rows_disjoint :
    opcodeMap.Pairwise (fun r₁ r₂ => r₁.pattern &&& r₂.mask ≠ r₂.pattern &&& r₁.mask) := by decide

/-! ### Helpers -/

/-- A property of the next state; false if there is none. -/
def nextHas (f : State → Bool) : Host.Outcome State Fault Refusal → Bool
  | .next t => f t
  | .fault _ => false
  | .refused _ => false

theorem exists_of_nextHas {f : State → Bool} {o : Host.Outcome State Fault Refusal} (h : nextHas f o = true) :
    ∃ t, o = .next t ∧ f t = true := by
  cases o with
  | next t => exact ⟨t, rfl, h⟩
  | fault _ => cases h
  | refused _ => cases h

/-- A command word on a state, decoded and run. -/
def run (w : BitVec 24) (s : State) : Host.Outcome State Fault Refusal := runWord (.cmd w) s

/-- After `START`. -/
def started : State := { State.reset with ien := true }

/-- The reset state with the major scale and given rotations. -/
def major (brot arot : BitVec 4) : State :=
  { State.reset with
    cfg := { Configuration.builtin with scale := 0xAB50, brot := brot }
    ov := { Overlay.neutral with arot := arot }
    rscale := rot 0xAB50 brot arot }

/-- The reset state with an auxiliary input 0 mode. -/
def auxMode (m : AuxMode) : State := { State.reset with cfg := { Configuration.builtin with auxm0 := m } }

/-- The housekeeping handler is active. -/
def inHandler : State := { started with hact := true }

/-- A save is due. -/
def saveDue : State := { State.reset with savepend := true }

/-! ### One step each, with values the spec prints -/

/-- R220. -/
theorem test_nop : nextHas (fun t => decide (t = { State.reset with ports := Ports.answered 0 0 })) (run 0x000000 State.reset) = true := by
  decide

/-- R105. -/
theorem test_toggle : nextHas (fun t => decide (t.cfg.scale = 0xAB70 ∧ t.rscale = 0xAB70 ∧ t.savetmr = 2000))
    (run 0x110000 (major 0 0)) = true := by decide

/-- R106. -/
theorem test_recall : nextHas (fun t => decide (t.cfg.scale = 0x0910 ∧ t.cfg.brot = 0 ∧ t.rscale = 0x1220))
    (run 0x230000 { major 5 1 with bank := [(6, 0x10), (7, 0x09)] }) = true := by decide

/-- R107. -/
theorem test_savebank : nextHas (fun t => decide (t.bank.bankRead 4 = 0xAB50 ∧ bankOcc t.bank = 0x010 ∧ ¬t.savepend))
    (run 0x340000 (major 0 0)) = true := by decide

/-- R108. -/
theorem test_setscale : nextHas (fun t => decide (t.cfg.scale = 0xAB50 ∧ t.savepend)) (run 0x40AB5F State.reset) = true := by
  decide

/-- R109. -/
theorem test_setrot : nextHas (fun t => decide (t.rscale = 0xAD60 ∧ t.cfg.scale = 0xAB50)) (run 0x420002 (major 0 0)) = true := by
  decide

/-- R203. -/
theorem test_setgli : nextHas (fun t => decide (t.gatelen = 110 ∧ t.cfg.gli = 3)) (run 0x410003 State.reset) = true := by
  decide

/-- R155 to R158. -/
theorem test_settrg : nextHas (fun t => decide (t.cfg.trg.toInt = -12)) (run 0x4300F4 State.reset) = true := by decide
theorem test_settrc : nextHas (fun t => decide (t.cfg.trc.toInt = -5)) (run 0x4400FB State.reset) = true := by decide
theorem test_setofg : nextHas (fun t => decide (t.cfg.ofg.toInt = -60)) (run 0x4500C4 State.reset) = true := by decide
theorem test_setofc : nextHas (fun t => decide (t.cfg.ofc.toInt = -128)) (run 0x460080 State.reset) = true := by decide

/-- R159 to R161. -/
theorem test_setleg : nextHas (fun t => t.cfg.legato) (run 0x470001 State.reset) = true := by decide
theorem test_setqm : nextHas (fun t => decide (t.cfg.qmode = .skip)) (run 0x480001 State.reset) = true := by decide
theorem test_settds : nextHas (fun t => decide (t.cfg.tds = 3 ∧ t.ch0.tdly = 9))
    (run 0x490003 { State.reset with ch0 := { Channel.reset with tdly := 9 } }) = true := by decide

/-- R192: the example; and S7: the rotation of input 1 stays when input 0 leaves transpose mode. -/
theorem test_setauxm : nextHas (fun t => decide (t.cfg.auxm0 = .off ∧ t.ov.arot = 0 ∧ t.rscale = 0xAB50))
    (run 0x5000FF { major 0 3 with
      cfg := { Configuration.builtin with
        scale := 0xAB50
        auxm0 := .rotate } }) = true := by
  decide
theorem test_setauxm_other : nextHas (fun t => decide (t.ov.arot = 3 ∧ t.ov.tr00 = 0 ∧ t.rscale = 0x5AD0))
    (run 0x5000FF { major 0 3 with
      cfg := { Configuration.builtin with
        scale := 0xAB50
        auxm0 := .transpose
        auxm1 := .rotate }
      ov := { Overlay.neutral with
        arot := 3
        tr00 := 7 } }) = true := by
  decide

/-- R163 to R165, R162. -/
theorem test_kbdon : nextHas (fun t => decide (t.kbdact ∧ t.kbdtrig0)) (run 0x610000 { State.reset with kbdtrig0 := true }) = true := by
  decide
theorem test_kbdoff : nextHas (fun t => decide (¬t.kbdact ∧ ¬t.kbdtrig0 ∧ t.kbdnote = 60))
    (run 0x600000 { State.reset with
      kbdact := true
      kbdtrig0 := true
      kbdnote := 60 }) = true := by decide
theorem test_kbdnote : nextHas (fun t => decide (t.kbdnote = 60 ∧ t.kbdtrig0 ∧ t.kbdtrig1)) (run 0x620050 State.reset) = true := by
  decide
theorem test_trigedge : nextHas (fun t => decide (t.ch1.elatch ∧ ¬t.ch0.elatch)) (run 0x710000 State.reset) = true := by
  decide

/-- R225: the return, and the refusal `LEVEL` outside the handler. -/
theorem test_hret : nextHas (fun t => decide (istat t = 1)) (run 0x800000 inHandler) = true := by decide
theorem test_hret_level : run 0x800000 started = .refused .level ∧
    afterRefusal .level { started with input := [.cmd 0x800000] } = { started with ports := Ports.answered 3 0 } :=
  ⟨rfl, by decide⟩

/-- R229: busy storage leaves the request pending; free storage saves. -/
theorem test_commit_busy : nextHas (fun t => decide (t.savepend ∧ t.ports.cfgSave = none))
    (run 0x900000 { saveDue with storageBusy := true }) = true := by decide
theorem test_commit : nextHas (fun t => decide (¬t.savepend ∧ t.ports.cfgSave = some Configuration.builtin)) (run 0x900000 saveDue) = true := by
  decide

/-- R221, R228, R226. -/
theorem test_start : nextHas (fun t => decide (istat t = 1)) (run 0xA00000 State.reset) = true := by decide
theorem test_cfgdef : nextHas (fun t => decide (t.rscale = 0xFFF0 ∧ t.gatelen = 5 ∧ t.savepend ∧ t.savetmr = 0 ∧ t.cfg.brot = 0))
    (run 0xB00000 { major 5 0 with gatelen := 110 }) = true := by decide
theorem test_rdreg : nextHas (fun t => decide (t.ports.rsp = some ⟨0, 0xFFF0⟩)) (run 0xC00010 State.reset) = true := by decide
theorem test_rdreg_signed : nextHas (fun t => decide (t.ports.rsp = some ⟨0, 0xFFFE⟩))
    (run 0xC00032 { State.reset with ch0 := { Channel.reset with gph := BitVec.ofInt 16 (-2) } }) = true := by decide

/-- R210, and R247: a second sample before the dispatch overwrites the first. -/
theorem test_adcdone : nextHas (fun t => decide (t.sdata = 0x1E3 ∧ t.pends ∧ ¬t.overrun)) (runWord (.adc 0x1E3) started) = true := by
  decide
theorem test_adcdone_overrun : nextHas (fun t => decide (t.sdata = 0x604 ∧ t.pends ∧ t.overrun))
    (runWord (.adc 0x604) { started with pends := true }) = true := by decide

/-- R223; R254: ignored before `START`. -/
theorem test_hktick : nextHas (fun t => decide (istat t = 5)) (runWord .tick started) = true := by decide
theorem test_hktick_before_start : nextHas (fun t => decide (t = State.reset)) (runWord .tick State.reset) = true := by
  decide

/-- R224: the example. -/
theorem test_hdisp : nextHas (fun t => decide (istat t = 9 ∧ t.savetmr = 6))
    (step { started with
      pendh := true
      savetmr := 7 }) = true := by decide

/-- R211: the example, with invocation 1 of R154. -/
theorem test_sdisp : nextHas (fun t => decide (t.nextch = 3 ∧ t.ch0.out = 60 ∧ t.ch0.gph.toInt = -2 ∧ t.ch0.tcnt = 1 ∧ t.ports.pitchWr0))
    (step { started with
      pends := true
      sdata := 0x1E3 }) = true := by decide

/-- R154: the gate turns on in invocation 3 and off in invocation 8. -/
theorem test_gate_example :
    let g := fun n => ((invocations .ch0 false (List.replicate n 483) State.reset).chan .ch0).gate
    [g 2, g 3, g 7, g 8] = [false, true, true, false] := by decide

/-- R191: the three invocations. -/
theorem test_aux_rotate :
    let s := { major 0 0 with cfg := { Configuration.builtin with
      scale := 0xAB50
      auxm0 := .rotate } }
    let t := auxProc .in0 507 s
    let u := auxProc .in0 400 t
    t.rscale = 0x5AD0 ∧ t.auxlast0 = 63 ∧ u.rscale = 0xAD60 ∧ u.ov.arot = 2 ∧ auxProc .in0 400 u = u := by
  decide

/-- Section 3.3, the rows where the four functions differ: 8, 47, 146, 1020, 1024. -/
theorem test_quantizers :
    [8, 47, 146, 1020, 1024].map (fun s : Int =>
      [qSemi s, qNearest true 0xAB50 s, qSkip 0xAB50 s, qEqual 0xAB50 s].map (fun v => v.map BitVec.toNat)) =
    [[some 1, some 2, none, some 0], [some 6, some 5, none, some 5], [some 18, some 19, none, some 17],
      [none, some 127, none, some 127], [none, none, none, some 127]] := by decide

/-- The host's question: after reset, the next step runs the word presented. -/
theorem test_withFetchWord : nextHas (fun t => decide (t.cfg.scale = 0xAB50)) (step (State.reset.withFetchWord 24 0x40AB50)) = true ∧
    nextHas (fun t => decide (t.input = [])) (step (State.reset.withFetchWord 12 0x1E3)) = true ∧
    nextHas (fun t => decide (t.input = [])) (step (State.reset.withFetchWord 0 0)) = true := by decide

/-! ### Witnesses: for each statement with hypotheses, values that meet them, clause by clause -/

/-- A state in the middle of work, not the reset state, with registers at the ends of their ranges. -/
def atWork : State :=
  { State.reset with
    cfg := { Configuration.builtin with
      scale := 0xAB50
      brot := 11
      gli := 11
      tds := 11
      auxm0 := .rotate
      auxm1 := .gateLength }
    ov := { Overlay.neutral with
      arot := 11
      tr00 := 0x81
      of11 := 0x7F
      gi := BitVec.ofInt 8 (-26)
      gr := 39 }
    rscale := 0x6AD0
    gatelen := 5
    ch0 := { Channel.reset with
      gph := BitVec.ofInt 16 (-2)
      tcnt := 2000
      lgn := 127 }
    kbdnote := 191
    savetmr := 2000
    savepend := true
    ien := true
    pends := true
    pendh := true
    bank := [(0, 0x10), (23, 0xFF)]
    input := [.quiet] }

theorem atWork_inv : Inv atWork where
  params := by decide
  config := by decide
  rscale := by decide
  gatelen := by decide
  gateMax := by decide
  overlay := by
    refine ⟨by decide, by decide, by decide, by decide, ?_⟩
    intro a c
    cases a <;> cases c <;> decide +kernel
  owned := by
    refine ⟨fun h => absurd (h .in0) (by decide), fun h => absurd (h .in1) (by decide)⟩
  channels := by
    intro c
    cases c
    · exact ⟨by decide, by decide, by decide⟩
    · exact ⟨by decide, by decide, by decide⟩
  kbdnote := by decide
  savetmr := by decide
  bank := by decide
  start := fun h => absurd h (by decide)

theorem noEventNow_nil {s : State} (h : s.input = []) : NoEventNow s := by simp [NoEventNow, h]

theorem noEventNow_quiet {s : State} {rest : List Input} (h : s.input = .quiet :: rest) : NoEventNow s := by
  simp [NoEventNow, h]

theorem noEventNow_cmd {s : State} {w : BitVec 24} {rest : List Input} (h : s.input = .cmd w :: rest) : NoEventNow s := by
  simp [NoEventNow, h]

theorem witness_DecodeEncodeRoundTrip :
    WellFormed (.toggle 11) ∧ WellFormed (.setqm 2) ∧ WellFormed (.setauxm .in1 255) ∧ WellFormed (.kbdnote 15 11) := by decide

theorem witness_EncodeDecodeRoundTrip :
    decode (.cmd 0x1B0000) = .ok (.toggle 11) ∧ decode (.cmd 0x400000) = .ok (.setscale 0) ∧
      decode (.adc 0xFFF) = .ok (.adcdone true true 1023) ∧ decode .tick = .ok .hktick := ⟨rfl, rfl, rfl, rfl⟩

theorem witness_OpcodeMapSelectsRows :
    selectRow 0x170000 = some (.toggle 7) ∧ selectRow 0xFFFFFF = none ∧
      (opcodeMap.any (fun r => r.selects 0x170000)) = true := by decide

theorem witness_IllegalWordsRefused :
    decode (.cmd 0x4A0000) = .error .illegal ∧ (fieldOP 0xD00000).toNat = 0xD ∧ (fieldIX 0x4A0000).toNat = 10 ∧
      (fieldIX 0x630000).toNat = 3 ∧ (fieldIX 0x520000).toNat = 2 ∧ fieldIX 0x010000 ≠ 0#4 ∧
      ({ State.reset with input := [.cmd 0x4A0000] } : State).input = .cmd 0x4A0000 :: [] ∧
      dispatchEnabled { State.reset with input := [.cmd 0x4A0000] } = false :=
  ⟨rfl, by decide, by decide, by decide, by decide, by decide, rfl, rfl⟩

theorem witness_OperandChecksRefuse :
    decode (.cmd 0x1C0000) = .error .operand ∧ decode (.cmd 0x480003) = .error .operand ∧
      decode (.cmd 0x5000FE) = .error .operand ∧ decode (.cmd 0x62000C) = .error .operand ∧
      dispatchEnabled { State.reset with input := [.cmd 0x1C0000] } = false := ⟨rfl, rfl, rfl, rfl, rfl⟩

/-- A command that completes, one refused `LEVEL`, an event that passes a pending dispatch. -/
theorem witness_StepRunsDecodedWord :
    (dispatchEnabled { started with input := [.cmd 0] } = false ∧ decode (.cmd 0) = .ok .nop ∧
      nextHas (fun _ => true) (exec .nop started) = true) ∧
    (decode (.cmd 0x800000) = .ok .hret ∧ exec .hret started = .refused .level) ∧
    (decode (.adc 0x1E3) = .ok (.adcdone false false 483) ∧
      nextHas (fun _ => true) (exec (.adcdone false false 483) { started with pends := true }) = true) := by
  exact ⟨⟨rfl, rfl, rfl⟩, ⟨rfl, rfl⟩, ⟨rfl, rfl⟩⟩

theorem witness_SchedulingPriority :
    (NoEventNow atWork ∧ atWork.pends = true) ∧
    (NoEventNow { atWork with pends := false } ∧ atWork.ien = true ∧ atWork.pendh = true ∧ atWork.hact = false) ∧
    (NoEventNow { inHandler with input := [.cmd 0x800000] } ∧ inHandler.pends = false ∧
      ¬(inHandler.ien = true ∧ inHandler.pendh = true ∧ inHandler.hact = false)) ∧
    NoEventNow started :=
  ⟨⟨noEventNow_quiet rfl, rfl⟩, ⟨noEventNow_quiet rfl, rfl, rfl, rfl⟩,
    ⟨noEventNow_cmd rfl, rfl, by decide⟩, noEventNow_nil rfl⟩

/-- A command that is done, and one of each refusal. -/
theorem witness_EveryStepIsDoneOrRefused :
    nextHas (fun _ => true) (step { started with input := [.cmd 0] }) = true ∧
    step { started with input := [.cmd 0xD00000] } = .refused .illegal ∧
    step { started with input := [.cmd 0x1C0000] } = .refused .operand ∧
    step { started with input := [.cmd 0x800000] } = .refused .level ∧
    step { inHandler with input := [.cmd 0x900000] } = .refused .level := ⟨rfl, rfl, rfl, rfl, rfl⟩

theorem witness_EventsIgnoredBeforeStart :
    State.reset.ien = false ∧ QuietBeforeStart State.reset ∧
      ({ State.reset with input := [.cmd 0] } : State).input = .cmd 0 :: [] ∧
      ({ State.reset with input := [.adc 0x1E3] } : State).input = .adc 0x1E3 :: [] ∧
      ({ State.reset with input := [.tick] } : State).input = .tick :: [] := ⟨rfl, fun _ => ⟨rfl, rfl, rfl⟩, rfl, rfl, rfl⟩

theorem witness_PlainSetsWriteTheirRegister : (11#4).toNat ≤ 11 ∧ ∃ edit : Configuration → State,
    edit = fun cfg => { State.reset with
      cfg := cfg, savetmr := BitVec.ofNat 16 State.reset.params.saveDelay, savepend := true,
      ports := Ports.answered 0 0 } := ⟨by decide, _, rfl⟩

theorem witness_ScaleEditsRotate : (0#4).toNat ≤ 11 ∧ (11#4).toNat ≤ 11 := by decide

theorem witness_SavebankStoresScale : atWork.bank.wf = true := by decide

theorem witness_SetgliRecomputesGateLength :
    atWork.params.valid = true ∧ atWork.ov.gr.toNat ≤ 39 ∧ (11#4).toNat ≤ 11 := by decide

theorem witness_PlainCommandsComplete : (11#4).toNat ≤ 11 := by decide

theorem witness_HretReturnsFromHousekeeping : inHandler.hact = true ∧ started.hact = false := by decide

theorem witness_CommitSavesWhenDue :
    (saveDue.hact = false ∧ saveDue.savepend = true ∧ saveDue.savetmr = 0#16 ∧ saveDue.storageBusy = false) ∧
    (atWork.hact = false ∧ ¬(atWork.savepend = true ∧ atWork.savetmr = 0#16 ∧ atWork.storageBusy = false)) ∧
    inHandler.hact = true := by decide

theorem witness_CfgdefLoadsDefaults : Inv atWork ∧ atWork.params.defaults = Configuration.builtin := ⟨atWork_inv, rfl⟩

theorem witness_RegisterMap : (0x0C#8).toNat ∉ List.range 0x0C ++ [0x10, 0x11] ++ List.range' 0x18 11 ++
    List.range' 0x30 16 ++ [0x40, 0x41, 0x48, 0x49, 0x4A] ++ List.range' 0x50 5 ++ [0x60] ++ List.range' 0x70 12 := by decide

theorem witness_EventsLatch : started.ien = true ∧ State.reset.ien = false := by decide

theorem witness_WellFormedInstructionsComplete :
    WellFormed (.toggle 11) ∧ Instr.toggle 11 ≠ .hret ∧ Instr.toggle 11 ≠ .commit ∧ ¬WellFormed (.toggle 12) := by decide

theorem witness_SdispServesOneInput :
    NoEventNow atWork ∧ atWork.pends = true ∧ atWork.nextch = 2#2 ∧ ({ atWork with nextch := 3 } : State).nextch = 3#2 ∧
      ({ atWork with nextch := 0 } : State).nextch = 0#2 ∧ ({ atWork with nextch := 1 } : State).nextch = 1#2 :=
  ⟨noEventNow_quiet rfl, rfl, rfl, rfl, rfl, rfl⟩

theorem witness_HdispEntersHousekeeping :
    NoEventNow { started with pendh := true } ∧ started.ien = true ∧ started.hact = false ∧ started.pends = false :=
  ⟨noEventNow_nil rfl, rfl, rfl, rfl⟩

theorem witness_ChannelInvocationFrame : Chan.ch1 ≠ .ch0 ∧ Chan.ch0 ≠ .ch1 := by decide

theorem witness_AuxInvocationFrame :
    Aux.in1 ≠ .in0 ∧ atWork.auxm .in0 ≠ .scaleRecall ∧ State.reset.auxm .in0 = .off := by decide

theorem witness_SequencerAdvancesOnlyAtSdisp :
    (nextHas (fun _ => true) (step atWork) = true ∧ nextAction atWork = .sdisp) ∧
    (nextHas (fun _ => true) (step { atWork with pends := false }) = true ∧
      nextAction { atWork with pends := false } ≠ .sdisp ∧ nextAction { atWork with pends := false } ≠ .reset) := by decide

/-- The moved semitone wraps where `j < r`. -/
theorem witness_RotationLaws : (0 ≤ 11 ∧ 0 ≤ 11) ∧ (11 ≤ 11 ∧ 0 ≤ 11) := by decide

/-- `QSkip(8)` is R124's example of a disabled semitone; the rounding step at both ends of semitone 1. -/
theorem witness_QuantizerLaws :
    ((-5 : Int) < -4) ∧ (4 : Int) + 4 = 8 * 1 + 0 ∧ (11 : Int) + 4 = 8 * 1 + 7 ∧
      (roundStep 8 = some (1, 4) ∧ en 0xAB50 1 = false) ∧
    (roundStep 0 = some (0, 4) ∧ en 0xAB50 0 = true) ∧ qNearest true 0xAB50 8 = some 2 ∧ qSkip 0xAB50 1019 = some 127 ∧
      qEqual 0xAB50 1019 = some 127 ∧ (0#16).extractLsb' 4 12 = 0#12 := by decide

theorem witness_NearestSearchRule :
    (0#16).extractLsb' 4 12 = 0#12 ∧ (-5 : Int) < -4 ∧ (0xAB50#16).extractLsb' 4 12 ≠ 0#12 ∧
      ((-4 : Int) + 4 = 8 * 0 + 0 ∧ en 0xAB50 0 = true) ∧ ((8 : Int) + 4 = 8 * 1 + 4 ∧ en 0xAB50 1 = false) := by decide

theorem witness_EqualSpacingRank :
    (0#16).extractLsb' 4 12 = 0#12 ∧ (-1 : Int) < 0 ∧ (0x0010#16).extractLsb' 4 12 ≠ 0#12 ∧ (0 : Int) ≤ 0 := by decide

theorem witness_GateLengthInterpolates :
    Params.ref.valid = true ∧ 11 ≤ 11 ∧ 39 ≤ 39 ∧ (11 : Int) + (-12) < 0 ∧ (11 : Int) ≤ (11 : Nat) + 0 ∧
      (10 ≤ 10 ∧ ((10 : Nat) : Int) + 0 = (10 : Nat)) ∧ 0 ≤ 39 := by decide

theorem witness_ModulationSums : Chan.ch1 = atWork.params.oneCh ∧ Chan.ch0 ≠ atWork.params.oneCh ∧ Inv atWork :=
  ⟨rfl, by decide, atWork_inv⟩

/-- Whether a case of the acceptance rule is met: legato, the keyboard, and what the first three sub-steps leave. -/
def acceptanceCase (c : Chan) (lvl : Bool) (s : State) (p : Channel → Bool → Bool) : Bool :=
  let x := trigCountdown (gateStep s.gatelen (s.chan c))
  s.params.legatoArms && p (trigInput s.params s.cfg.tds lvl x.1) x.2

/-- A note key is pressed; none is; free-running with a new candidate and with the same one; triggered with and without the
delay's end; no candidate. -/
theorem witness_AcceptanceRule :
    acceptanceCase .ch0 false
      { started with
        kbdact := true
        kbdtrig0 := true
        kbdnote := 127 }
      (fun _ _ => decide (range 127 = some 127)) = true ∧
    acceptanceCase .ch0 false { started with kbdact := true } (fun _ _ => true) = true ∧
    acceptanceCase .ch0 false started
      (fun r _ => decide (r.mode = .freeRunning ∧ pitchCandidate (started.setChan .ch0 r) .ch0 483 = some 60 ∧ 60#7 ≠ r.out)) = true ∧
    acceptanceCase .ch0 false started
      (fun r _ => decide (r.mode = .freeRunning ∧ pitchCandidate (started.setChan .ch0 r) .ch0 0 = some r.out)) = true ∧
    acceptanceCase .ch0 true { started with ch0 := { Channel.reset with tdly := 1 } }
      (fun r fire => decide (r.mode = .triggered ∧ fire = true ∧
        pitchCandidate (started.setChan .ch0 r) .ch0 483 = some 60)) = true ∧
    acceptanceCase .ch0 true started (fun r fire => decide (r.mode = .triggered ∧ fire = false)) = true ∧
    acceptanceCase .ch0 false { started with rscale := 0 }
      (fun r _ => decide (pitchCandidate ({ started with rscale := 0 }.setChan .ch0 r) .ch0 483 = none)) = true := by
  decide

/-- The three cases of the hysteresis, and a state in each of the three modes. -/
theorem witness_CandidateArithmeticOrder :
    (qmodeBits State.reset.cfg.qmode = 0#2 ∧
      qmodeBits ({ Configuration.builtin with qmode := .skip } : Configuration).qmode = 1#2 ∧
      qmodeBits ({ Configuration.builtin with qmode := .equal } : Configuration).qmode = 2#2) ∧
    (8 * (State.reset.chan .ch0).out.toNat < (483#10).toNat ∧ (480 : Int) = ((483#10).toNat : Int) - State.reset.params.hystUp) ∧
    ((503#10).toNat < 8 * ({ State.reset with ch0 := { Channel.reset with out := 63 } }.chan .ch0).out.toNat ∧
      (505 : Int) = ((503#10).toNat : Int) + State.reset.params.hystDn) ∧
    ((0#10).toNat = 8 * (State.reset.chan .ch0).out.toNat ∧ (0 : Int) = (0#10).toNat) := by decide

theorem witness_TriggerInputRule :
    Params.ref.valid = true ∧ (11#4).toNat ≤ 11 ∧ (true = true ∨ Channel.reset.elatch = true) ∧
      Params.ref.trigDebounceMin ≤ ({ Channel.reset with tcnt := 2 } : Channel).tcnt.toNat ∧
      Channel.reset.tcnt.toNat < Params.ref.trigDebounceMin ∧ Channel.reset.elatch = false ∧
      ({ Channel.reset with tcnt := 1999 } : Channel).tcnt.toNat < Params.ref.trigTimeout ∧
      Params.ref.trigTimeout ≤ ({ Channel.reset with tcnt := 2000 } : Channel).tcnt.toNat ∧
      Params.ref.trigTimeout ≤ (trigInput Params.ref 11 false { Channel.reset with tcnt := 1999 }).tcnt.toNat ∧
      (trigInput Params.ref 11 false { Channel.reset with tcnt := 1998 }).tcnt.toNat < Params.ref.trigTimeout := by decide

/-- No delay, a delay in its last invocation, and the shortest and the longest that go on; then an armed trigger. -/
theorem witness_TriggerDelayIsExact :
    (0#8).toNat = 0 ∧ (1#8).toNat = 1 ∧ 2 ≤ (2#8).toNat ∧ 2 ≤ (255#8).toNat ∧
    Params.ref.valid = true ∧ (11#4).toNat ≤ 11 ∧
      Params.ref.trigDebounceMin ≤ ({ Channel.reset with tcnt := 2 } : Channel).tcnt.toNat := by decide

/-- The ends of each clause: `n` = 1, 2, 32768, 32769 with `SETTLE = 2` and the longest gate. -/
theorem witness_GateTimingAfterAcceptance :
    let r : Channel := { Channel.reset with
      out := 60
      gph := BitVec.ofInt 16 (-2) }
    let g := 32767#16
    (1 ≤ 2 ∧ 2 ≤ 127 ∧ 1 ≤ g.toNat ∧ g.toNat ≤ 32767 ∧ r.gph.toInt = -(2 : Nat) ∧ r.gate = false ∧ r.out.toNat ≠ r.lgn.toNat) ∧
      1 < 2 ∧ (2 ≤ 2 ∧ 2 < 2 + g.toNat) ∧ (2 ≤ 32768 ∧ 32768 < 2 + g.toNat) ∧ 2 + g.toNat ≤ 32769 := by decide

theorem witness_RepeatedNoteRaisesNoGate :
    let r : Channel := { Channel.reset with
      out := 60
      lgn := 60
      gph := BitVec.ofInt 16 (-2) }
    r.gate = false ∧ r.out.toNat = r.lgn.toNat := by decide

theorem witness_TriggeredModeRoundTrip :
    State.reset.params.valid = true ∧ (List.replicate 1999 (483#10)).length < State.reset.params.trigTimeout ∧
      (List.replicate 2000 (483#10)).length = State.reset.params.trigTimeout := by decide +kernel

theorem witness_KeyboardIgnoresSample : ({ started with kbdact := true } : State).kbdact = true := rfl

theorem witness_AuxUnchangedValueFiresNothing :
    (8 * (State.reset.auxlast .in0).toNat < (3#10).toNat ∧ (0 : Int) = ((3#10).toNat : Int) - State.reset.params.auxHystUp ∧
      qSemi 0 = some (State.reset.auxlast .in0)) ∧
    (8 * (State.reset.auxlast .in0).toNat < (1023#10).toNat ∧
      (1020 : Int) = ((1023#10).toNat : Int) - State.reset.params.auxHystUp ∧ qSemi 1020 = none) ∧
    ((0#10).toNat = 8 * (State.reset.auxlast .in0).toNat ∧ qSemi 0 = some (State.reset.auxlast .in0)) ∧
    ((7#10).toNat < 8 * ({ State.reset with auxlast0 := 1 }.auxlast .in0).toNat ∧
      (9 : Int) = ((7#10).toNat : Int) + State.reset.params.auxHystDn ∧
      qSemi 9 = some ({ State.reset with auxlast0 := 1 }.auxlast .in0)) ∧
    (auxMode .rotate).auxm .in0 ≠ .gateLength ∧ (auxMode .gateLength).auxm .in0 = .gateLength := by decide

/-- In every mode: the lowest and the highest value that differ from the last one, from above and from below. -/
theorem witness_AuxEffectsOnChange :
    [AuxMode.rotate, .transpose, .transpose1, .offset, .offset1, .gateLength, .scaleRecall, .off].all (fun m =>
      let s := auxMode m
      let u := { s with auxlast0 := 127 }
      decide (s.params.valid = true ∧ s.auxm .in0 = m ∧
        (8 * (s.auxlast .in0).toNat < (7#10).toNat ∧ (4 : Int) = ((7#10).toNat : Int) - s.params.auxHystUp ∧
          qSemi 4 = some 1 ∧ (1#7) ≠ s.auxlast .in0) ∧
        (8 * (s.auxlast .in0).toNat < (1022#10).toNat ∧ (1019 : Int) = ((1022#10).toNat : Int) - s.params.auxHystUp ∧
          qSemi 1019 = some 127 ∧ (127#7) ≠ s.auxlast .in0) ∧
        ((0#10).toNat < 8 * (u.auxlast .in0).toNat ∧ (2 : Int) = ((0#10).toNat : Int) + u.params.auxHystDn ∧
          qSemi 2 = some 0 ∧ (0#7) ≠ u.auxlast .in0))) = true := by decide

theorem witness_GateOverlayDivision : State.reset.params.valid = true ∧ State.reset.params.gateZero ≤ 40 * 12 := by
  decide

theorem witness_AuxRotateExample :
    let s := { major 0 0 with cfg := { Configuration.builtin with
      scale := 0xAB50
      auxm0 := .rotate } }
    s.params = Params.ref ∧ s.cfg.auxm0 = .rotate ∧ s.auxlast0 = 0#7 ∧ s.cfg.scale = 0xAB50#16 ∧ s.cfg.brot = 0#4 := by
  decide

theorem witness_ResetState :
    (∃ u : State, u.params = Params.ref ∧ laterReset atWork = laterReset u) ∧ State.reset = State.resetWith Params.ref ∧
      Params.ref.valid = true ∧ Params.ref.defaults = Configuration.builtin :=
  ⟨⟨atWork, rfl, rfl⟩, rfl, by decide, rfl⟩

theorem witness_ResetMeetsInvariant :
    Params.ref.valid = true ∧ ({ atWork with input := [.reset] } : State).input = .reset :: [] := by decide

/-- A reset of the running block: the registers at their reset values, a written bank kept (10_state.md R49). -/
theorem test_later_reset :
    nextHas (fun t => decide (t.bank = atWork.bank ∧ t.cfg = Configuration.builtin ∧ t.rscale = 0xFFF0 ∧ t.gatelen = 5 ∧
      t.nextch = 2 ∧ istat t = 0 ∧ t.ch0 = Channel.reset ∧ t.input = [.tick]))
      (step { atWork with input := [.reset, .tick] }) = true := by decide

theorem witness_StepKeepsInvariant : (Inv atWork ∧ ∃ t, step atWork = .next t) ∧
    ∃ s, Inv s ∧ step s = .refused .illegal := by
  refine ⟨⟨atWork_inv, _, rfl⟩, { atWork with
    pends := false
    pendh := false
    input := [.cmd 0xD00000] }, ?_, rfl⟩
  exact { atWork_inv with
    channels := atWork_inv.channels
    owned := atWork_inv.owned
    start := fun h => absurd h (by decide) }

/-- A step other than a reset answers a next state that `f` accepts. -/
def operationHas (f : State → Bool) (s : State) : Bool := nextHas f (step s) && decide (nextAction s ≠ .reset)

/-- A step that sets and a step that clears each flag, none of them a reset. -/
theorem witness_SchedulerFlagRules :
    operationHas (fun t => t.ien) { State.reset with input := [.cmd 0xA00000] } = true ∧
    operationHas (fun t => t.pends) { started with input := [.adc 0] } = true ∧
    operationHas (fun t => !t.pends) { started with pends := true } = true ∧
    operationHas (fun t => t.pendh) { started with input := [.tick] } = true ∧
    operationHas (fun t => !t.pendh && t.hact) { started with pendh := true } = true ∧
    operationHas (fun t => !t.hact) { inHandler with input := [.cmd 0x800000] } = true := by decide

theorem witness_ConfigurationWriters :
    operationHas (fun t => decide (t.cfg ≠ State.reset.cfg)) { State.reset with input := [.cmd 0x470001] } = true ∧
    operationHas (fun t => decide (t.cfg ≠ (auxMode .scaleRecall).cfg))
      { auxMode .scaleRecall with
        pends := true
        nextch := 0
        sdata := 483 } = true := by decide

theorem witness_RuntimeRegisterWriters :
    operationHas (fun t => decide (t.chan .ch0 ≠ State.reset.chan .ch0)) { started with pends := true } = true ∧
    operationHas (fun t => decide (t.chan .ch1 ≠ State.reset.chan .ch1)) { started with input := [.cmd 0x710000] } = true ∧
    operationHas (fun t => decide (t.ov ≠ Overlay.neutral ∧ t.auxlast .in0 ≠ 0#7))
      { auxMode .rotate with
        pends := true
        nextch := 0
        sdata := 483 + 24 } = true ∧
    operationHas (fun t => decide (t.ov ≠ atWork.ov))
      { atWork with
        pends := false
        pendh := false
        input := [.cmd 0x5000FF] } = true := by decide

theorem witness_BankAndSaveRequestWriters :
    operationHas (fun t => decide (t.bank ≠ State.reset.bank)) { State.reset with input := [.cmd 0x3B0000] } = true ∧
    operationHas (fun t => t.savepend) { State.reset with input := [.cmd 0xB00000] } = true ∧
    operationHas (fun t => !t.savepend) { saveDue with input := [.cmd 0x900000] } = true := by decide

theorem witness_SaveDelayCountsRounds : State.reset.params.valid = true ∧ State.reset.storageBusy = false := by decide

theorem witness_OverrunIsNeverRead :
    operationHas (fun t => t.overrun) { started with overrun := true } = true ∧
    operationHas (fun t => t.overrun)
      { started with
        pends := true
        input := [.adc 0] } = true := by decide

/-- Each phase at its ends: settling, elapsing with a new note, with the same note under a gate still on (legato) and with the
gate off, idle, a timer that reaches a shortened `GATELEN`, and one that does not. -/
theorem witness_GateStepRule :
    (BitVec.ofInt 16 (-2)).toInt < -1 ∧ (BitVec.ofInt 16 (-1)).toInt = -1 ∧
      (60#7).toNat ≠ (0#8).toNat ∧ (60#7).toNat = (60#8).toNat ∧ (0#16).toInt = 0 ∧
      (0 < (100#16).toInt ∧ ((100#16).toNat : Int) ≤ (100#16).toInt ∧ ((5#16).toNat : Int) ≤ (100#16).toInt) ∧
      (0 < (32766#16).toInt ∧ (32766#16).toInt < (32767#16).toNat ∧ (32767#16).toNat ≤ 32767) := by decide

end Sys2Proof.Tests
end

section
/-! The constraint column of 00_scope.md R8 as named facts, and the range of the gate length that follows from it. -/

namespace Sys2Proof

/-- What `Params.valid` says, a field for each row of the table of 00_scope.md R8. -/
structure Params.Constraints (p : Params) : Prop where
  hyst         : 1 ≤ p.hystUp ∧ p.hystUp ≤ 4 ∧ p.hystDn < p.hystUp
  auxHyst      : 1 ≤ p.auxHystUp ∧ p.auxHystUp ≤ 4 ∧ p.auxHystDn < p.auxHystUp
  settle       : 1 ≤ p.settle ∧ p.settle ≤ 127
  trigTimeout  : 1 + 11 * p.trigDelayK < p.trigTimeout ∧ p.trigTimeout ≤ 65535
  trigDebounce : 1 ≤ p.trigDebounceMin ∧ p.trigDebounceMin < p.trigTimeout
  trigDelay    : 1 + 11 * p.trigDelayK ≤ 255
  auxCenter    : p.auxCenter ≤ 127
  gateZero     : p.gateZero ≤ 1023
  gateFirst    : p.gateAt 0 = 5 ∧ p.gateAt 1 = 50
  gateRange    : ∀ i < 12, 1 ≤ p.gateAt i ∧ p.gateAt i ≤ 32767
  gateMono     : ∀ i < 11, p.gateAt i ≤ p.gateAt (i + 1)
  oneCh        : p.oneCh = .ch1
  saveDelay    : p.saveDelay ≤ 65535
  defaults     : p.defaults.legal = true

theorem Params.valid_iff {p : Params} : p.valid = true ↔ p.Constraints := by
  simp only [Params.valid, Bool.and_eq_true, decide_eq_true_eq, List.all_eq_true, List.mem_range]
  constructor
  · rintro ⟨⟨⟨⟨⟨⟨⟨⟨⟨⟨⟨hh, ha⟩, hs⟩, ht⟩, hd⟩, hc⟩, hf⟩, hr⟩, hm⟩, ho⟩, hv⟩, hl⟩
    exact ⟨hh, ha, hs, ⟨ht.1, ht.2.1⟩, ⟨hd.1, ht.2.2⟩, hd.2, hc.1, hc.2, hf, hr, hm, ho, hv, hl⟩
  · rintro ⟨hh, ha, hs, ht, hd, hk, hc, hz, hf, hr, hm, ho, hv, hl⟩
    exact ⟨⟨⟨⟨⟨⟨⟨⟨⟨⟨⟨hh, ha⟩, hs⟩, ht.1, ht.2, hd.2⟩, hd.1, hk⟩, hc, hz⟩, hf⟩, hr⟩, hm⟩, ho⟩, hv⟩, hl⟩

theorem Configuration.legal_iff {c : Configuration} :
    c.legal = true ↔ c.scale.extractLsb' 0 4 = 0 ∧ c.gli.toNat < 12 ∧ c.brot.toNat < 12 ∧ c.tds.toNat < 12 := by
  simp only [Configuration.legal, Bool.and_eq_true, decide_eq_true_eq, and_assoc]

namespace Machine

/-- The interpolated increment lies between 0 and the whole distance of the two table entries (44_gate_length.md R200). -/
theorem interpolation_bounds {r : Nat} {d : Int} (hr : r ≤ 39) (hd : 0 ≤ d) :
    0 ≤ (r : Int) * d / 39 ∧ (r : Int) * d / 39 ≤ d := by
  have h0 : 0 ≤ (r : Int) * d := by positivity
  have h1 : (r : Int) * d ≤ 39 * d := by gcongr; exact_mod_cast hr
  omega

/-- A gate length is a duration the table may hold (44_gate_length.md R200). -/
theorem gateLen_bounds {p : Params} (hp : p.valid = true) {gli gr : Nat} {gi : Int} (hr : gr ≤ 39) :
    1 ≤ gateLen p gli gi gr ∧ gateLen p gli gi gr ≤ 32767 := by
  have hrange := (Params.valid_iff.mp hp).gateRange
  unfold gateLen
  dsimp only
  split
  · have := hrange 0 (by omega)
    omega
  · split
    · have := hrange 11 (by omega)
      omega
    · next h0 h11 =>
      have hlo := hrange ((gli : Int) + gi).toNat (by omega)
      have hhi := hrange (((gli : Int) + gi).toNat + 1) (by omega)
      have hle := (Params.valid_iff.mp hp).gateMono ((gli : Int) + gi).toNat (by omega)
      have hstep := interpolation_bounds (r := gr)
        (d := (p.gateAt (((gli : Int) + gi).toNat + 1) : Int) - p.gateAt ((gli : Int) + gi).toNat) hr (by omega)
      omega

/-- A gate length fits its register: `GATELEN` holds the whole value, and no sign bit is set. -/
theorem toNat_ofInt_gateLen {p : Params} (hp : p.valid = true) {gli gr : Nat} {gi : Int} (hr : gr ≤ 39) :
    ((BitVec.ofInt 16 (gateLen p gli gi gr)).toNat : Int) = gateLen p gli gi gr ∧
      (BitVec.ofInt 16 (gateLen p gli gi gr)).toNat ≤ 32767 := by
  have hb := gateLen_bounds hp (gli := gli) (gi := gi) hr
  rw [BitVec.toNat_ofInt]
  omega

/-- With a neutral overlay the gate length is the table entry itself. -/
theorem gateLen_neutral (p : Params) {gli : Nat} (h : gli ≤ 11) : gateLen p gli 0 0 = p.gateAt gli := by
  unfold gateLen
  dsimp only
  rw [if_neg (by omega)]
  split
  · rw [show gli = 11 by omega]
  · simp

end Machine

end Sys2Proof
end

section
/-! What a step can do, said once: what a command word that completes leaves. -/

namespace Sys2Proof.Machine

/-- The instructions of the command port: all but the two events (30_encoding.md R80). -/
def IsCommand : Instr → Prop
  | .adcdone _ _ _ => False
  | .hktick => False
  | _ => True

/-- `CFGDEF` between the release of the overlay and the request: the Configuration at `DEFAULTS` with both derived registers
recomputed (46_system_ops.md R228). -/
def loadDefaults (s : State) : State := recomputeGate (recomputeScale { s with cfg := s.params.defaults })

/-- What each command word that completes leaves: the inversion of `exec`, by the rows of the opcode map. -/
inductive Completes (s : State) : Instr → State → Prop where
  | nop : Completes s .nop (answer 0 s)
  | toggle {k : BitVec 4} (hk : k.toNat < 12) :
      Completes s (.toggle k) (answer 0 (markEdit (setScale (s.cfg.scale ^^^ (1#16 <<< (4 + k.toNat))) s)))
  | recallBank {b : BitVec 4} (hb : b.toNat < 12) :
      Completes s (.recall b) (answer 0 (markEdit (recallBank ⟨b.toNat, hb⟩ s)))
  | savebank {b : BitVec 4} (hb : b.toNat < 12) :
      Completes s (.savebank b) (saveBank ⟨b.toNat, hb⟩ s.cfg.scale (answer 0 s))
  | setscale (v : BitVec 16) : Completes s (.setscale v) (answer 0 (markEdit (setScale v s)))
  | setgli {i : BitVec 4} (hi : i.toNat < 12) :
      Completes s (.setgli i) (answer 0 (markEdit (recomputeGate { s with cfg := { s.cfg with gli := i } })))
  | setrot {r : BitVec 4} (hr : r.toNat < 12) :
      Completes s (.setrot r) (answer 0 (markEdit (recomputeScale { s with cfg := { s.cfg with brot := r } })))
  | settrg (v : BitVec 8) : Completes s (.settrg v) (answer 0 (markEdit { s with cfg := { s.cfg with trg := v } }))
  | settrc (v : BitVec 8) : Completes s (.settrc v) (answer 0 (markEdit { s with cfg := { s.cfg with trc := v } }))
  | setofg (v : BitVec 8) : Completes s (.setofg v) (answer 0 (markEdit { s with cfg := { s.cfg with ofg := v } }))
  | setofc (v : BitVec 8) : Completes s (.setofc v) (answer 0 (markEdit { s with cfg := { s.cfg with ofc := v } }))
  | setleg (f : Bool) : Completes s (.setleg f) (answer 0 (markEdit { s with cfg := { s.cfg with legato := f } }))
  | setqm {m : BitVec 2} {q : QMode} (hm : qmodeOf m = some q) :
      Completes s (.setqm m) (answer 0 (markEdit { s with cfg := { s.cfg with qmode := q } }))
  | settds {d : BitVec 4} (hd : d.toNat < 12) :
      Completes s (.settds d) (answer 0 (markEdit { s with cfg := { s.cfg with tds := d } }))
  | setauxm (a : Aux) {m : BitVec 8} {mode : AuxMode} (hm : auxModeOf m = some mode) :
      Completes s (.setauxm a m)
        (answer 0 (markEdit (recomputeGate (recomputeScale ((releaseAux a s).setAuxm a mode)))))
  | kbdoff : Completes s .kbdoff (answer 0 { s with kbdact := false, kbdtrig0 := false, kbdtrig1 := false })
  | kbdon : Completes s .kbdon (answer 0 { s with kbdact := true })
  | kbdnote (o : BitVec 4) {n : BitVec 4} (hn : n.toNat < 12) :
      Completes s (.kbdnote o n) (answer 0 { s with kbdnote := kbdNoteOf o n, kbdtrig0 := true, kbdtrig1 := true })
  | trigedge (c : Chan) : Completes s (.trigedge c) (answer 0 (s.setChan c { s.chan c with elatch := true }))
  | hret (hh : s.hact = true) : Completes s .hret (answer 0 (leaveHousekeeping s))
  | commitSaved (hh : s.hact = false) (hr : commitReady s = true) :
      Completes s .commit
        { s with savepend := false, ports := { Ports.idle with rsp := some ⟨0, 0⟩, cfgSave := some s.cfg } }
  | commitIdle (hh : s.hact = false) (hr : commitReady s = false) : Completes s .commit (answer 0 s)
  | start : Completes s .start (answer 0 { s with ien := true })
  | cfgdef : Completes s .cfgdef
      (answer 0 { loadDefaults (releaseAux .in1 (releaseAux .in0 s)) with savetmr := 0, savepend := true })
  | rdreg (addr : BitVec 8) : Completes s (.rdreg addr) (answer (regRead s addr) s)

theorem completes_of_exec {i : Instr} {s t : State} (hi : IsCommand i) (h : exec i s = .next t) : Completes s i t := by
  cases i with
  | nop => cases h; exact .nop
  | toggle k =>
    by_cases hk : k.toNat < 12 <;> simp [exec, execToggle, index12, hk] at h
    exact h ▸ .toggle hk
  | savebank b =>
    by_cases hb : b.toNat < 12 <;> simp [exec, execSavebank, index12, hb] at h
    exact h ▸ .savebank hb
  | setscale v => cases h; exact .setscale v
  | setgli g =>
    by_cases hg : g.toNat < 12 <;> simp [exec, execSetgli, index12, hg] at h
    exact h ▸ .setgli hg
  | setrot r =>
    by_cases hr : r.toNat < 12 <;> simp [exec, execSetrot, index12, hr] at h
    exact h ▸ .setrot hr
  | settrg v => cases h; exact .settrg v
  | settrc v => cases h; exact .settrc v
  | setofg v => cases h; exact .setofg v
  | setofc v => cases h; exact .setofc v
  | setleg f => cases h; exact .setleg f
  | setqm m =>
    cases hm : qmodeOf m <;> simp [exec, execSetqm, hm] at h
    exact h ▸ .setqm hm
  | settds d =>
    by_cases hd : d.toNat < 12 <;> simp [exec, execSettds, index12, hd] at h
    exact h ▸ .settds hd
  | setauxm a m =>
    cases hm : auxModeOf m <;> simp [exec, execSetauxm, hm] at h
    exact h ▸ .setauxm a hm
  | kbdoff => cases h; exact .kbdoff
  | kbdon => cases h; exact .kbdon
  | kbdnote o n =>
    by_cases hn : n.toNat < 12 <;> simp [exec, execKbdnote, index12, hn] at h
    exact h ▸ .kbdnote o hn
  | trigedge c => cases h; exact .trigedge c
  | hret =>
    cases hh : s.hact <;> simp [exec, execHret, hh] at h
    exact h ▸ .hret hh
  | commit =>
    simp only [exec, execCommit] at h
    split at h
    · cases h
    · next hh =>
      split at h
      · next hr => cases h; exact .commitSaved (Bool.eq_false_of_not_eq_true hh) hr
      · next hr => cases h; exact .commitIdle (Bool.eq_false_of_not_eq_true hh) (Bool.eq_false_of_not_eq_true hr)
  | start => cases h; exact .start
  | cfgdef => cases h; exact .cfgdef
  | rdreg addr => cases h; exact .rdreg addr
  | adcdone t1 t0 raw => exact hi.elim
  | hktick => exact hi.elim
  | _ =>
    -- `RECALL`, whose constructor's name is a keyword where a case is named
    rename_i b
    by_cases hb : b.toNat < 12 <;> simp [exec, execRecall, index12, hb] at h
    exact h ▸ .recallBank hb

theorem isCommand_of_rowIf {zero : Bool} {i j : Instr} (h : rowIf zero i = some j) (hi : IsCommand i) : IsCommand j := by
  unfold rowIf at h
  split at h <;> cases h
  exact hi

theorem isCommand_of_selectSet {ix : BitVec 4} {d : BitVec 16} {i : Instr} (h : selectSet ix d = some i) :
    IsCommand i := by
  unfold selectSet at h
  split at h
  case h_1 => cases h; trivial
  case h_11 => cases h
  all_goals exact isCommand_of_rowIf h trivial

theorem isCommand_of_selectKbd {ix : BitVec 4} {d : BitVec 16} {i : Instr} (h : selectKbd ix d = some i) :
    IsCommand i := by
  unfold selectKbd at h
  split at h
  case h_4 => cases h
  all_goals exact isCommand_of_rowIf h trivial

/-- No row of the opcode map is an event's. -/
theorem isCommand_of_selectRow {w : BitVec 24} {i : Instr} (h : selectRow w = some i) : IsCommand i := by
  unfold selectRow at h
  dsimp only at h
  split at h
  case h_5 => exact isCommand_of_selectSet h
  case h_7 => exact isCommand_of_selectKbd h
  case h_14 => cases h
  all_goals exact isCommand_of_rowIf h trivial

theorem isCommand_of_decode {w : BitVec 24} {i : Instr} (h : decode (.cmd w) = .ok i) : IsCommand i := by
  simp only [decode, decodeCommand] at h
  split at h
  · cases h
  · next j hj =>
    unfold checkOperands at h
    split at h <;> cases h
    exact isCommand_of_selectRow hj

end Sys2Proof.Machine
end

section
/-! What a step can do, said once: the frame of the two invocations that a dispatch makes, and the cases of a step with the
state each leaves. -/

namespace Sys2Proof.Machine

/-! ### The two invocations of a dispatch -/

/-- Everything a channel invocation can do: the channel's registers go through the three input sub-steps and perhaps an
acceptance; beside them only the keyboard flags and the strobes move (42_channel_processor.md R140). -/
theorem chanProc_cases (c : Chan) (raw : BitVec 10) (lvl : Bool) (s : State) :
    ∃ (r : Channel) (k0 k1 : Bool) (ports : Ports),
      chanProc c raw lvl s = { s.setChan c r with kbdtrig0 := k0, kbdtrig1 := k1, ports := ports } ∧
      (r = (channelInput s.params s.gatelen s.cfg.tds lvl (s.chan c)).1 ∨
        ∃ n, r = acceptNote s.params s.cfg.legato n (channelInput s.params s.gatelen s.cfg.tds lvl (s.chan c)).1) := by
  obtain ⟨⟨r, fire⟩, hr⟩ : ∃ x, x = channelInput s.params s.gatelen s.cfg.tds lvl (s.chan c) := ⟨_, rfl⟩
  have hspend : ∃ k0 k1, spendKbdtrig (s.setChan c r) c = { s.setChan c r with kbdtrig0 := k0, kbdtrig1 := k1 } := by
    unfold spendKbdtrig State.clearKbdtrig
    split
    · cases c <;> exact ⟨_, _, rfl⟩
    · exact ⟨_, _, rfl⟩
  obtain ⟨k0, k1, hk⟩ := hspend
  simp only [chanProc, ← hr, hk]
  rcases acceptIf_cases c (candidateOf (s.setChan c r) c raw fire)
    { s.setChan c r with kbdtrig0 := k0, kbdtrig1 := k1 } with h | ⟨n, -, -, h⟩
  · exact ⟨r, k0, k1, s.ports, by rw [h]; cases c <;> rfl, .inl rfl⟩
  · refine ⟨acceptNote s.params s.cfg.legato n r, k0, k1, (accept c n (s.setChan c r)).ports, ?_, .inr ⟨n, rfl⟩⟩
    rw [h]
    cases c <;> rfl

/-- An effect of a changed auxiliary value reaches the overlay, the derived registers and, in scale-recall mode only, `SCALE`
and `BROT` (43_aux_processor.md R186 to R190). -/
theorem auxEffect_frame (a : Aux) (m : AuxMode) (v : Int) (s : State) :
    ∃ (cfg : Configuration) (ov : Overlay) (rscale : BitVec 16),
      auxEffect a m v s = { s with cfg := cfg, ov := ov, rscale := rscale } ∧
      cfg = { s.cfg with scale := cfg.scale, brot := cfg.brot } ∧ (m ≠ .scaleRecall → cfg = s.cfg) := by
  cases m with
  | scaleRecall => exact ⟨_, _, _, rfl, rfl, fun h => absurd rfl h⟩
  | rotate | transpose | transpose1 | offset | offset1 | gateLength | off => exact ⟨_, _, _, rfl, rfl, fun _ => rfl⟩

/-- The gate-length mapping that goes before the change, if the mode asks for it (43_aux_processor.md R183). -/
theorem gateOverlay_frame (a : Aux) (raw : BitVec 10) (s : State) :
    ∃ (ov : Overlay) (gatelen : BitVec 16),
      (if s.auxm a = .gateLength then gateOverlay raw s else s) = { s with ov := ov, gatelen := gatelen } := by
  split <;> exact ⟨_, _, rfl⟩

/-- Everything an auxiliary invocation can write: `AUXLAST[a]`, the overlay, the derived registers and, in scale-recall mode
only, `SCALE` and `BROT` (43_aux_processor.md R180, R189). -/
theorem auxProc_frame (a : Aux) (raw : BitVec 10) (s : State) :
    ∃ (q : BitVec 7) (cfg : Configuration) (ov : Overlay) (rscale gatelen : BitVec 16),
      auxProc a raw s = { s.setAuxlast a q with cfg := cfg, ov := ov, rscale := rscale, gatelen := gatelen } ∧
      cfg = { s.cfg with scale := cfg.scale, brot := cfg.brot } ∧ (s.auxm a ≠ .scaleRecall → cfg = s.cfg) := by
  obtain ⟨ov, g, hu⟩ := gateOverlay_frame a raw s
  simp only [auxProc, hu]
  rcases auxChange_cases a raw { s with ov := ov, gatelen := g } with h | ⟨q, -, -, h⟩
  · exact ⟨s.auxlast a, s.cfg, ov, s.rscale, g, by rw [h]; cases a <;> rfl, rfl, fun _ => rfl⟩
  · rw [h]
    obtain ⟨cfg, ov', rs, he, hc, hm⟩ := auxEffect_frame a (s.auxm a) ((q.toNat : Int) - s.params.auxCenter)
      (State.setAuxlast { s with ov := ov, gatelen := g } a q)
    refine ⟨q, cfg, ov', rs, g, he.trans ?_, by simpa using hc, by simpa using hm⟩
    cases a <;> rfl

/-! ### The step -/

@[simp] theorem consumeQuiet_cfg (s : State) : s.consumeQuiet.cfg = s.cfg := by rw [consumeQuiet_eq]
@[simp] theorem consumeQuiet_ov (s : State) : s.consumeQuiet.ov = s.ov := by rw [consumeQuiet_eq]
@[simp] theorem consumeQuiet_chan (s : State) (c : Chan) : s.consumeQuiet.chan c = s.chan c := by
  rw [consumeQuiet_eq]; cases c <;> rfl
@[simp] theorem consumeQuiet_auxlast (s : State) (a : Aux) : s.consumeQuiet.auxlast a = s.auxlast a := by
  rw [consumeQuiet_eq]; cases a <;> rfl
@[simp] theorem consumeQuiet_auxm (s : State) (a : Aux) : s.consumeQuiet.auxm a = s.auxm a := by
  rw [consumeQuiet_eq]; cases a <;> rfl
@[simp] theorem consumeQuiet_nextch (s : State) : s.consumeQuiet.nextch = s.nextch := by rw [consumeQuiet_eq]
@[simp] theorem consumeQuiet_overrun (s : State) : s.consumeQuiet.overrun = s.overrun := by rw [consumeQuiet_eq]

/-- An action that presents a word as an event presents one at an event port (60_exceptions.md R252). -/
theorem nextAction_event {s : State} {w : PortWord} (h : nextAction s = .event w) : (∃ a, w = .adc a) ∨ w = .tick := by
  unfold nextAction ownAction at h
  split at h
  case h_3 a _ _ => cases h; exact .inl ⟨a, rfl⟩
  case h_4 => cases h; exact .inr rfl
  case h_1 | h_2 => cases h
  all_goals split at h <;> [cases h; (split at h <;> cases h)]

theorem hdispEnabled_iff {s : State} :
    hdispEnabled s = true ↔ s.ien = true ∧ s.pendh = true ∧ s.hact = false ∧ s.pends = false := by
  simp [hdispEnabled, and_assoc]

/-- The entry of the housekeeping level is taken only where it is enabled (46_system_ops.md R224). -/
theorem nextAction_hdisp {s : State} (h : nextAction s = .hdisp) : hdispEnabled s = true := by
  unfold nextAction ownAction at h
  split at h
  case h_1 | h_2 | h_3 | h_4 => cases h
  all_goals
    split at h
    · cases h
    · split at h
      · assumption
      · cases h

/-- The decoder's fields of a sample word put it together again (30_encoding.md R82). -/
theorem sampleWord_fields (a : BitVec 12) : sampleWord (a.getLsbD 11) (a.getLsbD 10) (a.extractLsb' 0 10) = a := by
  apply BitVec.eq_of_getLsbD_eq
  intro i hi
  simp only [sampleWord, BitVec.getLsbD_append, BitVec.getLsbD_extractLsb', BitVec.getLsbD_ofBool]
  by_cases h10 : i < 10
  · simp [h10]
  · obtain rfl | rfl : i = 10 ∨ i = 11 := by omega
    · simp
    · simp

/-- Everything a step can do, a constructor for each action, with the state that it leaves. -/
inductive Steps (s : State) : State → Prop where
  | storage {b : Bool} (ha : nextAction s = .storage b) : Steps s { s.consume with storageBusy := b }
  | reset (ha : nextAction s = .reset) : Steps s (laterReset s.consume)
  | sample {a : BitVec 12} (ha : nextAction s = .event (.adc a)) : Steps s (latchSample a s.consume)
  | tick (ha : nextAction s = .event .tick) : Steps s (latchTick s.consume)
  | sdisp (ha : nextAction s = .sdisp) : Steps s (serveSample s.consumeQuiet)
  | hdisp (ha : nextAction s = .hdisp) : Steps s (enterHousekeeping s.consumeQuiet)
  | command {w : BitVec 24} {i : Instr} {t : State} (ha : nextAction s = .command w) (hd : decode (.cmd w) = .ok i)
      (hc : Completes s.consume i t) : Steps s t
  | wait (ha : nextAction s = .wait) : Steps s s.consumeQuiet

theorem steps_of_step {s t : State} (h : step s = .next t) : Steps s t := by
  rcases step_eq_next h with ⟨b, ha, rfl⟩ | ⟨ha, rfl⟩ | ⟨w, ha, hw⟩ | ⟨ha, rfl⟩ | ⟨ha, rfl⟩ | ⟨w, ha, hw⟩ | ⟨ha, rfl⟩
  · exact .storage ha
  · exact .reset ha
  · rcases nextAction_event ha with ⟨a, rfl⟩ | rfl
    · simp only [runWord, decode, decodeSample, exec, execAdcdone, sampleWord_fields, Host.Outcome.next.injEq] at hw
      exact hw ▸ .sample ha
    · simp only [runWord, decode, exec, execHktick, Host.Outcome.next.injEq] at hw
      exact hw ▸ .tick ha
  · exact .sdisp ha
  · exact .hdisp ha
  · obtain ⟨i, hd, he⟩ := runWord_eq_next hw
    exact .command ha hd (completes_of_exec (isCommand_of_decode hd) he)
  · exact .wait ha

/-! ### The dispatch of a sample -/

theorem serveSample_channel {s : State} {c : Chan} (h : served s.nextch = .channel c) :
    ∃ (r : Channel) (k0 k1 : Bool) (ports : Ports),
      serveSample s = { s.setChan c r with
        kbdtrig0 := k0, kbdtrig1 := k1, ports := ports, pends := false, nextch := s.nextch + 1 } := by
  obtain ⟨r, k0, k1, ports, hp, -⟩ := chanProc_cases c (sampleRaw s.sdata) (sampleLevel c s.sdata)
    { s with pends := false, nextch := s.nextch + 1, ports := Ports.idle }
  refine ⟨r, k0, k1, ports, ?_⟩
  rw [serveSample, h, invoke, hp]
  cases c <;> rfl

theorem serveSample_auxiliary {s : State} {a : Aux} (h : served s.nextch = .auxiliary a) :
    ∃ (q : BitVec 7) (cfg : Configuration) (ov : Overlay) (rscale gatelen : BitVec 16),
      serveSample s = { s.setAuxlast a q with
        cfg := cfg, ov := ov, rscale := rscale, gatelen := gatelen, pends := false, nextch := s.nextch + 1,
        ports := Ports.idle } ∧
      cfg = { s.cfg with scale := cfg.scale, brot := cfg.brot } ∧ (s.auxm a ≠ .scaleRecall → cfg = s.cfg) := by
  obtain ⟨q, cfg, ov, rs, g, hp, hc, hm⟩ := auxProc_frame a (sampleRaw s.sdata)
    { s with pends := false, nextch := s.nextch + 1, ports := Ports.idle }
  refine ⟨q, cfg, ov, rs, g, ?_, hc, hm⟩
  rw [serveSample, h, invoke, hp]
  cases a <;> rfl

@[simp] theorem serveSample_nextch (s : State) : (serveSample s).nextch = s.nextch + 1 := by
  cases h : served s.nextch with
  | channel c => obtain ⟨_, _, _, _, e⟩ := serveSample_channel h; rw [e]
  | auxiliary a => obtain ⟨_, _, _, _, _, e, -⟩ := serveSample_auxiliary h; rw [e]

@[simp] theorem serveSample_overrun (s : State) : (serveSample s).overrun = s.overrun := by
  cases h : served s.nextch with
  | channel c => obtain ⟨_, _, _, _, e⟩ := serveSample_channel h; simp [e]
  | auxiliary a => obtain ⟨_, _, _, _, _, e, -⟩ := serveSample_auxiliary h; simp [e]

theorem serveSample_chan {s : State} {c : Chan} (h : served s.nextch ≠ .channel c) :
    (serveSample s).chan c = s.chan c := by
  cases hs : served s.nextch with
  | channel d =>
    obtain ⟨r, _, _, _, e⟩ := serveSample_channel hs
    have hd : c ≠ d := fun hcd => h (hcd ▸ hs)
    rw [e]
    exact chan_setChan_of_ne hd r s
  | auxiliary a =>
    obtain ⟨_, _, _, _, _, e, -⟩ := serveSample_auxiliary hs
    rw [e]
    cases a <;> rfl

theorem serveSample_auxlast {s : State} {a : Aux} (h : served s.nextch ≠ .auxiliary a) :
    (serveSample s).auxlast a = s.auxlast a := by
  cases hs : served s.nextch with
  | channel c =>
    obtain ⟨_, _, _, _, e⟩ := serveSample_channel hs
    rw [e]
    cases c <;> rfl
  | auxiliary b =>
    obtain ⟨q, _, _, _, _, e, -⟩ := serveSample_auxiliary hs
    have hb : a ≠ b := fun hab => h (hab ▸ hs)
    rw [e]
    exact auxlast_setAuxlast_of_ne hb q s

theorem serveSample_ov_of_channel {s : State} {c : Chan} (h : served s.nextch = .channel c) :
    (serveSample s).ov = s.ov := by
  obtain ⟨_, _, _, _, e⟩ := serveSample_channel h
  simp [e]

theorem serveSample_cfg_of_channel {s : State} {c : Chan} (h : served s.nextch = .channel c) :
    (serveSample s).cfg = s.cfg := by
  obtain ⟨_, _, _, _, e⟩ := serveSample_channel h
  simp [e]

end Sys2Proof.Machine
end

section
/-! What a command word that completes leaves in the registers it does not write. -/

namespace Sys2Proof.Machine

variable {s t : State} {i : Instr}

theorem Completes.nextch (h : Completes s i t) : t.nextch = s.nextch := by
  cases h <;> simp [saveBank, loadDefaults, releaseAux_eq]

theorem Completes.overrun (h : Completes s i t) : t.overrun = s.overrun := by
  cases h <;> simp [saveBank, loadDefaults, releaseAux_eq]

theorem Completes.auxlast (h : Completes s i t) (a : Aux) : t.auxlast a = s.auxlast a := by
  cases a <;> cases h <;> simp [State.auxlast, saveBank, loadDefaults, releaseAux_eq]

/-- A command word that changes the Configuration is one of the fourteen that write it (10_state.md R22). -/
theorem Completes.cfg_writer (h : Completes s i t) (hne : t.cfg ≠ s.cfg) :
    i.mnemonic ∈ ["TOGGLE", "RECALL", "SETSCALE", "SETGLI", "SETROT", "SETTRG", "SETTRC", "SETOFG", "SETOFC", "SETLEG",
      "SETQM", "SETTDS", "SETAUXM", "CFGDEF"] := by
  cases h with
  | toggle | recallBank | setscale | setgli | setrot | settrg | settrc | setofg | setofc | setleg | setqm | settds | setauxm
  | cfgdef => simp [Instr.mnemonic]
  | trigedge c => simp at hne
  | nop | savebank | kbdoff | kbdon | kbdnote | hret | commitSaved | commitIdle | start | rdreg => exact absurd rfl hne

/-- A command word that changes the overlay is `SETAUXM` or `CFGDEF` (10_state.md R28). -/
theorem Completes.ov_writer (h : Completes s i t) (hne : t.ov ≠ s.ov) : i.mnemonic ∈ ["SETAUXM", "CFGDEF"] := by
  cases h with
  | setauxm | cfgdef => simp [Instr.mnemonic]
  | trigedge c => simp at hne
  | nop | toggle | recallBank | savebank | setscale | setgli | setrot | settrg | settrc | setofg | setofc | setleg | setqm
  | settds | kbdoff | kbdon | kbdnote | hret | commitSaved | commitIdle | start | rdreg => exact absurd rfl hne

/-- A command word that changes a channel's registers is `TRIGEDGE` for that channel, and it sets the edge latch only
(42_channel_processor.md R162). -/
theorem Completes.chan_writer (h : Completes s i t) {c : Chan} (hne : t.chan c ≠ s.chan c) :
    i = .trigedge c ∧ t.chan c = { s.chan c with elatch := true } := by
  cases h with
  | trigedge d =>
    by_cases hd : c = d
    · subst hd
      exact ⟨rfl, chan_setChan_self c _ s⟩
    · exact absurd (chan_setChan_of_ne hd _ s) hne
  | setauxm a =>
    refine absurd ?_ hne
    rw [releaseAux_eq]
    cases a <;> rfl
  | cfgdef =>
    refine absurd ?_ hne
    rw [releaseAux_eq, releaseAux_eq]
    rfl
  | nop | toggle | recallBank | savebank | setscale | setgli | setrot | settrg | settrc | setofg | setofc | setleg | setqm
  | settds | kbdoff | kbdon | kbdnote | hret | commitSaved | commitIdle | start | rdreg => exact absurd rfl hne

end Sys2Proof.Machine
end

section
/-! Who writes a register (10_state.md R22, R28, R30, R34, R44): each statement by the cases of a step. -/

namespace Sys2Proof.Machine

/-- The registers that only a dispatch, a command word or a reset can write are the same in two states. -/
structure SameRegisters (s t : State) : Prop where
  nextch  : t.nextch = s.nextch
  cfg     : t.cfg = s.cfg
  ov      : t.ov = s.ov
  chan    : ∀ c, t.chan c = s.chan c
  auxlast : ∀ a, t.auxlast a = s.auxlast a

/-- A step other than a reset is a dispatch of a sample, runs a command word, or writes none of these registers. -/
theorem Steps.writer {s t : State} (h : Steps s t) (hr : nextAction s ≠ .reset) :
    (nextAction s = .sdisp ∧ t = serveSample s.consumeQuiet) ∨
    (∃ w i, nextAction s = .command w ∧ decode (.cmd w) = .ok i ∧ Completes s.consume i t) ∨
    nextAction s ≠ .sdisp ∧ SameRegisters s t := by
  cases h with
  | reset ha => exact absurd ha hr
  | sdisp ha => exact .inl ⟨ha, rfl⟩
  | command ha hd hc => exact .inr (.inl ⟨_, _, ha, hd, hc⟩)
  | storage ha => exact .inr (.inr ⟨by simp [ha], ⟨rfl, rfl, rfl, fun _ => rfl, fun _ => rfl⟩⟩)
  | sample ha =>
    refine .inr (.inr ⟨by simp [ha], ?_⟩)
    rcases latchSample_cases _ s.consume with ⟨-, e⟩ | ⟨-, e⟩ <;> rw [e] <;>
      exact ⟨rfl, rfl, rfl, fun _ => rfl, fun _ => rfl⟩
  | tick ha =>
    refine .inr (.inr ⟨by simp [ha], ?_⟩)
    rcases latchTick_cases s.consume with ⟨-, e⟩ | ⟨-, e⟩ <;> rw [e] <;>
      exact ⟨rfl, rfl, rfl, fun _ => rfl, fun _ => rfl⟩
  | hdisp ha =>
    exact .inr (.inr ⟨by simp [ha], by simp, by simp, by simp, consumeQuiet_chan s, consumeQuiet_auxlast s⟩)
  | wait ha =>
    exact .inr (.inr ⟨by simp [ha], by simp, by simp, by simp, consumeQuiet_chan s, consumeQuiet_auxlast s⟩)

/-- Of the four values `NEXTCH` takes in a row, each input is served at exactly one (45_sampling_sequencer.md R212). -/
theorem served_once (n : BitVec 2) (x : Served) : ∃ j : BitVec 2, served (n + j) = x ∧ ∀ k, served (n + k) = x → k = j := by
  rcases x with c | a
  · cases c <;> revert n <;> decide
  · cases a <;> revert n <;> decide

/-- Settles O29, by the writers of a step; the round robin is a finite check over the four values of `NEXTCH`. -/
theorem sequencerAdvancesOnlyAtSdisp : Obligations.SequencerAdvancesOnlyAtSdisp := by
  refine ⟨fun s t h => ⟨fun ha => ?_, fun hs hr => ?_⟩, fun s => ⟨rfl, rfl⟩, served_once⟩
  · rcases (steps_of_step h).writer (by simp [ha]) with ⟨-, rfl⟩ | ⟨w, _, hw, -, -⟩ | ⟨hs, -⟩
    · simp [BitVec.toNat_add]
    · rw [ha] at hw; cases hw
    · exact absurd ha hs
  · rcases (steps_of_step h).writer hr with ⟨ha, -⟩ | ⟨_, _, -, -, hc⟩ | ⟨-, same⟩
    · exact absurd ha hs
    · exact hc.nextch
    · exact same.nextch

/-- Settles O55, by the writers of a step: of the dispatches only that of an auxiliary input in scale-recall mode reaches the
Configuration. -/
theorem configurationWriters : Obligations.ConfigurationWriters := by
  intro s t h hr hne
  rcases (steps_of_step h).writer hr with ⟨ha, rfl⟩ | ⟨w, i, ha, hd, hc⟩ | ⟨-, same⟩
  · refine .inr ⟨ha, ?_⟩
    cases hs : served s.nextch with
    | channel c => simp [serveSample_cfg_of_channel (s := s.consumeQuiet) (by simpa using hs)] at hne
    | auxiliary a =>
      obtain ⟨_, cfg, _, _, _, e, hcfg, hmode⟩ := serveSample_auxiliary (s := s.consumeQuiet) (by simpa using hs)
      simp only [e, consumeQuiet_cfg, consumeQuiet_auxm] at hne hcfg hmode ⊢
      exact ⟨⟨a, rfl, not_not.mp fun hm => hne (hmode hm)⟩, hcfg⟩
  · exact .inl ⟨w, i, ha, hd, hc.cfg_writer hne⟩
  · exact absurd same.cfg hne

/-- Settles O56, by the writers of a step, for each of the three groups of registers. -/
theorem runtimeRegisterWriters : Obligations.RuntimeRegisterWriters := by
  intro s t h hr
  rcases (steps_of_step h).writer hr with ⟨ha, rfl⟩ | ⟨w, i, ha, hd, hc⟩ | ⟨-, same⟩
  · refine ⟨fun c hne => .inl ⟨ha, ?_⟩, fun hne => .inl ⟨ha, ?_⟩, fun a hne => ⟨ha, ?_⟩⟩
    · by_contra hs
      exact hne ((serveSample_chan (by simpa using hs)).trans (consumeQuiet_chan s c))
    · cases hs : served s.nextch with
      | channel c => simp [serveSample_ov_of_channel (s := s.consumeQuiet) (by simpa using hs)] at hne
      | auxiliary a => exact ⟨a, rfl⟩
    · by_contra hs
      exact hne ((serveSample_auxlast (by simpa using hs)).trans (consumeQuiet_auxlast s a))
  · refine ⟨fun c hne => ?_, fun hne => .inr ⟨w, i, ha, hd, hc.ov_writer hne⟩, fun a hne => absurd (hc.auxlast a) hne⟩
    obtain ⟨rfl, hch⟩ := hc.chan_writer hne
    exact .inr ⟨hch, w, ha, hd⟩
  · exact ⟨fun c hne => absurd (same.chan c) hne, fun hne => absurd same.ov hne,
      fun a hne => absurd (same.auxlast a) hne⟩

end Sys2Proof.Machine
end

section
/-! `OVERRUN` (10_state.md R46): erasing it commutes with every operation, and only a sample event sets it. -/

namespace Sys2Proof.Machine

theorem setChan_eraseOverrun (c : Chan) (r : Channel) (s : State) :
    s.eraseOverrun.setChan c r = (s.setChan c r).eraseOverrun := by
  cases c <;> rfl

theorem acceptIf_eraseOverrun (c : Chan) (k : Candidate) (s : State) :
    acceptIf c k s.eraseOverrun = (acceptIf c k s).eraseOverrun := by
  unfold acceptIf
  cases k.note with
  | none => rfl
  | some n => cases k.trig <;> cases c <;> rfl

theorem spendKbdtrig_eraseOverrun (s : State) (c : Chan) :
    spendKbdtrig s.eraseOverrun c = (spendKbdtrig s c).eraseOverrun := by
  cases h : s.kbdact <;> cases c <;> simp [spendKbdtrig, State.eraseOverrun, State.clearKbdtrig, h]

theorem candidateOf_eraseOverrun (s : State) (c : Chan) (raw : BitVec 10) (fire : Bool) :
    candidateOf s.eraseOverrun c raw fire = candidateOf s c raw fire := rfl

theorem chanProc_eraseOverrun (c : Chan) (raw : BitVec 10) (lvl : Bool) (s : State) :
    chanProc c raw lvl s.eraseOverrun = (chanProc c raw lvl s).eraseOverrun := by
  unfold chanProc
  have hc : s.eraseOverrun.chan c = s.chan c := rfl
  rw [hc]
  dsimp only
  rw [setChan_eraseOverrun, candidateOf_eraseOverrun, spendKbdtrig_eraseOverrun, acceptIf_eraseOverrun]
  rfl

theorem auxEffect_eraseOverrun (a : Aux) (m : AuxMode) (v : Int) (s : State) :
    auxEffect a m v s.eraseOverrun = (auxEffect a m v s).eraseOverrun := by
  cases m <;> rfl

theorem auxChange_eraseOverrun (a : Aux) (raw : BitVec 10) (s : State) :
    auxChange a raw s.eraseOverrun = (auxChange a raw s).eraseOverrun := by
  have hp : s.eraseOverrun.params = s.params := rfl
  have hl : s.eraseOverrun.auxlast a = s.auxlast a := rfl
  have hset : ∀ q, s.eraseOverrun.setAuxlast a q = (s.setAuxlast a q).eraseOverrun := fun q => by cases a <;> rfl
  rw [auxChange, auxChange, hp, hl]
  cases qSemi (auxHyst s.params (s.auxlast a) raw) with
  | none => rfl
  | some q =>
    by_cases hq : q = s.auxlast a
    · simp [hq]
    · simp only [hq, if_false, hset]
      exact auxEffect_eraseOverrun a _ _ (s.setAuxlast a q)

theorem auxProc_eraseOverrun (a : Aux) (raw : BitVec 10) (s : State) :
    auxProc a raw s.eraseOverrun = (auxProc a raw s).eraseOverrun := by
  have hm : s.eraseOverrun.auxm a = s.auxm a := rfl
  unfold auxProc
  rw [hm, ← auxChange_eraseOverrun]
  split <;> rfl

theorem serveSample_eraseOverrun (s : State) : serveSample s.eraseOverrun = (serveSample s).eraseOverrun := by
  have hs : served s.eraseOverrun.nextch = served s.nextch := rfl
  unfold serveSample
  rw [hs]
  cases served s.nextch with
  | channel c => exact chanProc_eraseOverrun c _ _ { s with pends := false, nextch := s.nextch + 1, ports := Ports.idle }
  | auxiliary a => exact auxProc_eraseOverrun a _ { s with pends := false, nextch := s.nextch + 1, ports := Ports.idle }

theorem releaseAux_eraseOverrun (a : Aux) (s : State) :
    releaseAux a s.eraseOverrun = (releaseAux a s).eraseOverrun := by
  rw [releaseAux_eq, releaseAux_eq]
  rfl

theorem latchSample_eraseOverrun (a : BitVec 12) (s : State) :
    (latchSample a s.eraseOverrun).eraseOverrun = (latchSample a s).eraseOverrun := by
  cases h : s.ien <;> simp [latchSample, State.eraseOverrun, h]

/-- No instruction reads `OVERRUN`: erasing it before or after makes no difference beyond the flag, refusals included. -/
theorem exec_eraseOverrun (i : Instr) (s : State) : eraseOverrun (exec i s.eraseOverrun) = eraseOverrun (exec i s) := by
  cases i with
  | toggle k => simp only [exec, execToggle]; cases index12 k <;> rfl
  | savebank b => simp only [exec, execSavebank]; cases index12 b <;> rfl
  | setgli g => simp only [exec, execSetgli]; cases index12 g <;> rfl
  | setrot r => simp only [exec, execSetrot]; cases index12 r <;> rfl
  | setqm m => simp only [exec, execSetqm]; cases qmodeOf m <;> rfl
  | settds d => simp only [exec, execSettds]; cases index12 d <;> rfl
  | kbdnote o n => simp only [exec, execKbdnote]; cases index12 n <;> rfl
  | setauxm a m =>
    simp only [exec, execSetauxm, releaseAux_eraseOverrun]
    cases auxModeOf m <;> cases a <;> rfl
  | cfgdef => simp only [exec, execCfgdef, releaseAux_eraseOverrun]; rfl
  | trigedge c => cases c <;> rfl
  | hret =>
    have hh : s.eraseOverrun.hact = s.hact := rfl
    simp only [exec, execHret, hh]
    cases s.hact <;> rfl
  | commit =>
    have hh : s.eraseOverrun.hact = s.hact := rfl
    have hr : commitReady s.eraseOverrun = commitReady s := rfl
    simp only [exec, execCommit, hh, hr]
    cases s.hact <;> cases commitReady s <;> rfl
  | adcdone t1 t0 raw => exact congrArg Host.Outcome.next (latchSample_eraseOverrun _ s)
  | hktick =>
    have hi : s.eraseOverrun.ien = s.ien := rfl
    simp only [exec, execHktick, latchTick, hi]
    cases s.ien <;> rfl
  | nop | setscale | settrg | settrc | setofg | setofc | setleg | kbdoff | kbdon | start | rdreg => rfl
  | _ =>
    -- `RECALL`, whose constructor's name is a keyword where a case is named
    rename_i b
    simp only [exec, execRecall]
    cases index12 b <;> rfl

theorem runWord_eraseOverrun (w : PortWord) (s : State) :
    eraseOverrun (runWord w s.eraseOverrun) = eraseOverrun (runWord w s) := by
  unfold runWord
  cases decode w with
  | error e => rfl
  | ok i => exact exec_eraseOverrun i s

theorem consumeQuiet_eraseOverrun (s : State) : s.eraseOverrun.consumeQuiet = s.consumeQuiet.eraseOverrun := by
  have hi : s.eraseOverrun.input = s.input := rfl
  unfold State.consumeQuiet
  rw [hi]
  split <;> rfl

theorem perform_eraseOverrun (a : Action) (s : State) :
    eraseOverrun (perform a s.eraseOverrun) = eraseOverrun (perform a s) := by
  cases a with
  | storage b => rfl
  | reset => rfl
  | event w => exact runWord_eraseOverrun w s.consume
  | command w => exact runWord_eraseOverrun (.cmd w) s.consume
  | sdisp => simp only [perform, consumeQuiet_eraseOverrun, serveSample_eraseOverrun]; rfl
  | hdisp => simp only [perform, consumeQuiet_eraseOverrun]; rfl
  | wait => simp only [perform, consumeQuiet_eraseOverrun]; rfl

theorem nextAction_eraseOverrun (s : State) : nextAction s.eraseOverrun = nextAction s := rfl

/-- The only step, a reset aside, that moves `OVERRUN` is a sample event on a pending sample. -/
theorem Steps.overrun_iff {s t : State} (h : Steps s t) (hr : nextAction s ≠ .reset) :
    t.overrun = true ↔
      s.overrun = true ∨ s.ien = true ∧ s.pends = true ∧ ∃ a, nextAction s = .event (.adc a) := by
  cases h with
  | reset ha => exact absurd ha hr
  | sample ha =>
    rcases latchSample_cases _ s.consume with ⟨hi, e⟩ | ⟨hi, e⟩ <;> rw [consume_ien] at hi <;> rw [e] <;> simp [hi, ha]
  | tick ha =>
    rcases latchTick_cases s.consume with ⟨-, e⟩ | ⟨-, e⟩ <;> rw [e] <;> simp [ha]
  | command ha hd hc => simp [hc.overrun, ha]
  | storage ha | sdisp ha | hdisp ha | wait ha => simp [ha]

/-- Settles O59: erasing the flag commutes with the performance of every action, and the cases of a step give who sets it. -/
theorem overrunIsNeverRead : Obligations.OverrunIsNeverRead := by
  intro s
  refine ⟨?_, fun t h hr => (steps_of_step h).overrun_iff hr⟩
  rw [step, step, nextAction_eraseOverrun, perform_eraseOverrun]

end Sys2Proof.Machine
end

section
/-! A channel's value columns (10_state.md R30) through the sub-steps of an invocation. -/

namespace Sys2Proof.Machine

theorem Channel.sound_reset (p : Params) : Channel.reset.sound p := by
  simp [Channel.sound, Channel.reset]

/-- A phase below the largest signed value counts up without wrapping. -/
theorem toInt_succ {x : BitVec 16} (h : x.toInt < 32767) : (x + 1).toInt = x.toInt + 1 := by
  have hlo := BitVec.le_toInt x
  have h1 : (1 : BitVec 16).toInt = 1 := by decide
  rw [BitVec.toInt_add, h1, Int.bmod_eq_of_le (by omega) (by omega)]

variable {p : Params} {r : Channel}

theorem Channel.sound_gateStep (hp : p.valid = true) {g : BitVec 16} (hg : g.toNat ≤ 32767) (h : r.sound p) :
    (gateStep g r).sound p := by
  obtain ⟨hgph, htcnt, hlgn⟩ := h
  have hsettle := (Params.valid_iff.mp hp).settle
  have hout : (r.out.zeroExtend 8).toNat ≤ 127 := by
    have hlt := r.out.isLt
    rw [BitVec.toNat_setWidth]
    omega
  rcases gateStep_cases g r with ⟨hlt, -, e⟩ | ⟨-, -, -, e⟩ | ⟨-, -, -, e⟩ | ⟨-, -, e⟩ | ⟨h0, hlt, e⟩ | ⟨-, e⟩ <;> rw [e]
  · refine ⟨?_, htcnt, hlgn⟩
    dsimp only
    rw [toInt_succ (by omega)]
    omega
  · exact ⟨by simp, htcnt, hout⟩
  · refine ⟨?_, htcnt, hlgn⟩
    cases r.gate <;> simp
  · exact ⟨by simp, htcnt, hlgn⟩
  · refine ⟨?_, htcnt, hlgn⟩
    dsimp only
    rw [toInt_succ (by omega)]
    omega
  · exact ⟨hgph, htcnt, hlgn⟩

theorem Channel.sound_trigCountdown (h : r.sound p) : (trigCountdown r).1.sound p := by
  rcases trigCountdown_cases r with ⟨-, e⟩ | ⟨-, e⟩ <;> rw [e] <;> exact h

theorem Channel.sound_trigInput (hp : p.valid = true) (tds : BitVec 4) (lvl : Bool) (h : r.sound p) :
    (trigInput p tds lvl r).sound p := by
  obtain ⟨hgph, htcnt, hlgn⟩ := h
  have htime := (Params.valid_iff.mp hp).trigTimeout
  unfold trigInput
  split
  · exact ⟨hgph, Nat.zero_le _, hlgn⟩
  · refine ⟨hgph, ?_, hlgn⟩
    dsimp only
    split
    · next hlt =>
      have : (r.tcnt + 1).toNat ≤ r.tcnt.toNat + 1 := by
        rw [BitVec.toNat_add]
        exact Nat.mod_le _ _
      omega
    · exact htcnt

theorem Channel.sound_channelInput (hp : p.valid = true) {g : BitVec 16} (hg : g.toNat ≤ 32767) (tds : BitVec 4)
    (lvl : Bool) (h : r.sound p) : (channelInput p g tds lvl r).1.sound p :=
  sound_trigInput hp tds lvl (sound_trigCountdown (sound_gateStep hp hg h))

/-- An acceptance starts the settling delay at `-SETTLE`, which fits the phase register. -/
theorem Channel.sound_acceptNote (hp : p.valid = true) (legato : Bool) (n : Note) (h : r.sound p) :
    (acceptNote p legato n r).sound p := by
  obtain ⟨hgph, htcnt, hlgn⟩ := h
  have hsettle := (Params.valid_iff.mp hp).settle
  refine ⟨?_, htcnt, hlgn⟩
  simp only [acceptNote]
  split
  · exact hgph
  · rw [BitVec.toInt_ofInt, Int.bmod_eq_of_le (by omega) (by omega)]

end Sys2Proof.Machine
end

section
/-! The overlay's value columns (10_state.md R28) through its updates. -/

namespace Sys2Proof.Machine

@[simp] theorem setTr_arot (o : Overlay) (a : Aux) (c : Chan) (v : BitVec 8) : (o.setTr a c v).arot = o.arot := by
  cases a <;> cases c <;> rfl
@[simp] theorem setTr_gi (o : Overlay) (a : Aux) (c : Chan) (v : BitVec 8) : (o.setTr a c v).gi = o.gi := by
  cases a <;> cases c <;> rfl
@[simp] theorem setTr_gr (o : Overlay) (a : Aux) (c : Chan) (v : BitVec 8) : (o.setTr a c v).gr = o.gr := by
  cases a <;> cases c <;> rfl
@[simp] theorem setTr_ovof (o : Overlay) (a b : Aux) (c d : Chan) (v : BitVec 8) :
    (o.setTr a c v).ovof b d = o.ovof b d := by
  cases a <;> cases c <;> rfl
@[simp] theorem setOf_arot (o : Overlay) (a : Aux) (c : Chan) (v : BitVec 8) : (o.setOf a c v).arot = o.arot := by
  cases a <;> cases c <;> rfl
@[simp] theorem setOf_gi (o : Overlay) (a : Aux) (c : Chan) (v : BitVec 8) : (o.setOf a c v).gi = o.gi := by
  cases a <;> cases c <;> rfl
@[simp] theorem setOf_gr (o : Overlay) (a : Aux) (c : Chan) (v : BitVec 8) : (o.setOf a c v).gr = o.gr := by
  cases a <;> cases c <;> rfl
@[simp] theorem setOf_ovtr (o : Overlay) (a b : Aux) (c d : Chan) (v : BitVec 8) :
    (o.setOf a c v).ovtr b d = o.ovtr b d := by
  cases a <;> cases c <;> rfl

theorem Overlay.sound_neutral : Overlay.neutral.sound := by
  refine ⟨by decide, by decide, by decide, by decide, fun a c => ?_⟩
  cases a <;> cases c <;> decide

variable {o : Overlay} {v : BitVec 8}

theorem Overlay.gr_le_of_sound (h : o.sound) : o.gr.toNat ≤ 39 := by
  obtain ⟨-, -, -, hgr, -⟩ := h
  exact hgr

theorem Overlay.sound_setTr (h : o.sound) (a : Aux) (c : Chan) (hv : -127 ≤ v.toInt) : (o.setTr a c v).sound := by
  obtain ⟨hrot, hgi, hgi', hgr, hsum⟩ := h
  refine ⟨by simpa, by simpa, by simpa, by simpa, fun b d => ⟨?_, by simpa using (hsum b d).2⟩⟩
  by_cases hbd : b = a ∧ d = c
  · obtain ⟨rfl, rfl⟩ := hbd
    simpa
  · rw [ovtr_setTr_of_ne o hbd]
    exact (hsum b d).1

theorem Overlay.sound_setOf (h : o.sound) (a : Aux) (c : Chan) (hv : -127 ≤ v.toInt) : (o.setOf a c v).sound := by
  obtain ⟨hrot, hgi, hgi', hgr, hsum⟩ := h
  refine ⟨by simpa, by simpa, by simpa, by simpa, fun b d => ⟨by simpa using (hsum b d).1, ?_⟩⟩
  by_cases hbd : b = a ∧ d = c
  · obtain ⟨rfl, rfl⟩ := hbd
    simpa
  · rw [ovof_setOf_of_ne o hbd]
    exact (hsum b d).2

/-- A centred auxiliary value fits the 8-bit signed overlay registers (43_aux_processor.md R182). -/
theorem toInt_ofInt_centred {x : Int} (h : -127 ≤ x) (h' : x ≤ 127) : (BitVec.ofInt 8 x).toInt = x := by
  rw [BitVec.toInt_ofInt, Int.bmod_eq_of_le (by omega) (by omega)]

end Sys2Proof.Machine
end

section
/-! The invariant through every operation (10_state.md R51). An update that touches no field the invariant speaks of keeps it
by `{ h with }`; the others prove the fields they move. -/

namespace Sys2Proof.Machine

variable {s : State}

theorem Inv.answer (h : Inv s) (d : BitVec 16) : Inv (answer d s) := { h with }

theorem Inv.consume (h : Inv s) : Inv s.consume := { h with }

theorem Inv.consumeQuiet (h : Inv s) : Inv s.consumeQuiet := by
  rw [consumeQuiet_eq]
  exact { h with }

theorem Inv.markEdit (h : Inv s) : Inv (markEdit s) :=
  { h with
    savetmr := by
      rw [markEdit_savetmr, BitVec.toNat_ofNat]
      exact Nat.mod_le _ _ }

theorem Inv.setChan (h : Inv s) (c : Chan) {r : Channel} (hr : r.sound s.params) : Inv (s.setChan c r) := by
  have hchan : ∀ d, ((s.setChan c r).chan d).sound s.params := fun d => by
    by_cases hd : d = c
    · rw [hd, chan_setChan_self]
      exact hr
    · rw [chan_setChan_of_ne hd]
      exact h.channels d
  cases c <;> exact { h with channels := hchan }

/-- Writing the two rotation inputs of the Configuration, with `RSCALE` recomputed. -/
theorem Inv.writeScale (h : Inv s) {scale : BitVec 16} {brot : BitVec 4} (hs : scale.extractLsb' 0 4 = 0)
    (hb : brot.toNat < 12) :
    Inv (recomputeScale { s with cfg := { s.cfg with scale := scale, brot := brot } }) := by
  obtain ⟨-, hgli, -, htds⟩ := Configuration.legal_iff.mp h.config
  exact { h with config := Configuration.legal_iff.mpr ⟨hs, hgli, hb, htds⟩, rscale := rfl }

theorem extractLsb'_mask_low (v : BitVec 16) : (v &&& 0xFFF0).extractLsb' 0 4 = 0 := by
  ext i hi
  have : i = 0 ∨ i = 1 ∨ i = 2 ∨ i = 3 := by omega
  rcases this with rfl | rfl | rfl | rfl <;> simp

theorem Inv.setScale (h : Inv s) (v : BitVec 16) : Inv (setScale v s) := by
  obtain ⟨-, -, hb, -⟩ := Configuration.legal_iff.mp h.config
  exact h.writeScale (extractLsb'_mask_low v) hb

theorem Inv.recallBank (h : Inv s) (b : Fin 12) : Inv (recallBank b s) :=
  h.writeScale (extractLsb'_mask_low _) (by simp)

/-- A new Configuration and overlay, with both derived registers recomputed from them. -/
theorem Inv.reconfigure (h : Inv s) {cfg : Configuration} {ov : Overlay} (hc : cfg.legal = true) (ho : ov.sound)
    (hown : OverlayOwned { s with cfg := cfg, ov := ov }) :
    Inv (recomputeGate (recomputeScale { s with cfg := cfg, ov := ov })) :=
  { h with
    config := hc
    overlay := ho
    owned := hown
    rscale := rfl
    gatelen := (toNat_ofInt_gateLen h.params (Overlay.gr_le_of_sound ho)).1
    gateMax := (toNat_ofInt_gateLen h.params (Overlay.gr_le_of_sound ho)).2 }

/-- A new overlay whose shared registers are the old ones. -/
theorem Inv.writeContributions (h : Inv s) {ov : Overlay} (ho : ov.sound) (hrot : ov.arot = s.ov.arot)
    (hgi : ov.gi = s.ov.gi) (hgr : ov.gr = s.ov.gr) : Inv { s with ov := ov } :=
  { h with
    overlay := ho
    owned := ⟨fun ha => hrot.trans (h.owned.1 ha),
      fun ha => ⟨hgi.trans (h.owned.2 ha).1, hgr.trans (h.owned.2 ha).2⟩⟩
    rscale := by dsimp only; rw [hrot]; exact h.rscale
    gatelen := by dsimp only; rw [hgi, hgr]; exact h.gatelen }

theorem Inv.setTr (h : Inv s) (a : Aux) (c : Chan) {v : BitVec 8} (hv : -127 ≤ v.toInt) :
    Inv { s with ov := s.ov.setTr a c v } :=
  h.writeContributions (Overlay.sound_setTr h.overlay a c hv) (by simp) (by simp) (by simp)

theorem Inv.setOf (h : Inv s) (a : Aux) (c : Chan) {v : BitVec 8} (hv : -127 ≤ v.toInt) :
    Inv { s with ov := s.ov.setOf a c v } :=
  h.writeContributions (Overlay.sound_setOf h.overlay a c hv) (by simp) (by simp) (by simp)

theorem Inv.setgli (h : Inv s) {i : BitVec 4} (hi : i.toNat < 12) :
    Inv (recomputeGate { s with cfg := { s.cfg with gli := i } }) := by
  obtain ⟨hs, -, hb, htds⟩ := Configuration.legal_iff.mp h.config
  exact { h with
    config := Configuration.legal_iff.mpr ⟨hs, hi, hb, htds⟩
    gatelen := (toNat_ofInt_gateLen h.params (Overlay.gr_le_of_sound h.overlay)).1
    gateMax := (toNat_ofInt_gateLen h.params (Overlay.gr_le_of_sound h.overlay)).2 }

theorem Inv.settds (h : Inv s) {d : BitVec 4} (hd : d.toNat < 12) : Inv { s with cfg := { s.cfg with tds := d } } := by
  obtain ⟨hs, hgli, hb, -⟩ := Configuration.legal_iff.mp h.config
  exact { h with config := Configuration.legal_iff.mpr ⟨hs, hgli, hb, hd⟩ }

/-! ### The release of an input -/

theorem Inv.releaseAux_sound (h : Inv s) (a : Aux) : (releaseAux a s).ov.sound := by
  obtain ⟨hrot, hgi, hgi', hgr, hsum⟩ := h.overlay
  rw [releaseAux_eq]
  refine ⟨?_, ?_, ?_, ?_, fun b c => ?_⟩
  · dsimp only; split <;> simp [hrot]
  · dsimp only; split <;> simp [hgi]
  · dsimp only; split <;> simp [hgi']
  · dsimp only; split <;> simp [hgr]
  · change -127 ≤ ((s.ov.clearInput a).ovtr b c).toInt ∧ -127 ≤ ((s.ov.clearInput a).ovof b c).toInt
    rw [clearInput_ovtr, clearInput_ovof]
    split
    · simp
    · exact hsum b c

/-- After the release of an input its mode may be anything: a shared register it contributed to is neutral, and any other
is owned as before (43_aux_processor.md R192). -/
theorem OverlayOwned.setauxm (h : OverlayOwned s) (a : Aux) (mode : AuxMode) :
    OverlayOwned ((releaseAux a s).setAuxm a mode) := by
  have hmodes : ∀ m, (∀ b, ((releaseAux a s).setAuxm a mode).auxm b ≠ m) → s.auxm a ≠ m → ∀ b, s.auxm b ≠ m := by
    intro m hb ha b
    by_cases hba : b = a
    · rwa [hba]
    · have := hb b
      rw [auxm_setAuxm_of_ne hba, releaseAux_eq] at this
      exact this
  rw [OverlayOwned, setAuxm_ov]
  refine ⟨fun hb => ?_, fun hb => ?_⟩
  · rw [releaseAux_eq]
    by_cases ha : s.auxm a = .rotate
    · simp [ha]
    · simpa [ha] using h.1 (hmodes _ hb ha)
  · rw [releaseAux_eq]
    by_cases ha : s.auxm a = .gateLength
    · simp [ha]
    · simpa [ha] using h.2 (hmodes _ hb ha)

theorem Inv.setauxm (h : Inv s) (a : Aux) (mode : AuxMode) :
    Inv (recomputeGate (recomputeScale ((releaseAux a s).setAuxm a mode))) := by
  have hown := h.owned.setauxm a mode
  have hov := h.releaseAux_sound a
  have hstate : (releaseAux a s).setAuxm a mode =
      { s with cfg := (s.setAuxm a mode).cfg, ov := (releaseAux a s).ov } := by
    rw [releaseAux_eq]
    cases a <;> rfl
  rw [hstate] at hown ⊢
  exact h.reconfigure (by cases a <;> exact h.config) hov hown

/-- In a sound state the release of both inputs leaves the whole overlay neutral (46_system_ops.md R228). -/
theorem Inv.releaseAux_both (h : Inv s) :
    releaseAux .in1 (releaseAux .in0 s) = { s with ov := Overlay.neutral } := by
  have hown : ∀ m, s.auxm .in1 ≠ m → s.auxm .in0 ≠ m → ∀ a, s.auxm a ≠ m := fun m h1 h0 a => by
    cases a <;> assumption
  have hmode : (releaseAux .in0 s).auxm .in1 = s.auxm .in1 := by rw [releaseAux_eq]; rfl
  rw [releaseAux_eq .in1, hmode, releaseAux_eq .in0]
  simp only [Overlay.clearInput, Overlay.setTr, Overlay.setOf, Overlay.neutral, State.mk.injEq, Overlay.mk.injEq,
    and_true, true_and]
  refine ⟨?_, ?_, ?_⟩
  · split
    · rfl
    · next h1 => split <;> [rfl; exact h.owned.1 (hown _ h1 (by assumption))]
  · split
    · rfl
    · next h1 => split <;> [rfl; exact (h.owned.2 (hown _ h1 (by assumption))).1]
  · split
    · rfl
    · next h1 => split <;> [rfl; exact (h.owned.2 (hown _ h1 (by assumption))).2]

theorem Inv.cfgdef (h : Inv s) : Inv (loadDefaults (releaseAux .in1 (releaseAux .in0 s))) := by
  rw [h.releaseAux_both]
  exact h.reconfigure (Params.valid_iff.mp h.params).defaults Overlay.sound_neutral ⟨fun _ => rfl, fun _ => ⟨rfl, rfl⟩⟩

/-! ### The command words -/

/-- A keyboard note's value fits its register (42_channel_processor.md R165). -/
theorem toNat_kbdNoteOf {o n : BitVec 4} (hn : n.toNat < 12) : (kbdNoteOf o n).toNat = 12 * o.toNat + n.toNat := by
  have ho := o.isLt
  rw [kbdNoteOf, BitVec.toNat_ofNat]
  omega

/-- Every command word that completes keeps the invariant. -/
theorem Inv.completes (h : Inv s) {i : Instr} {t : State} (hc : Completes s i t) : Inv t := by
  cases hc with
  | nop => exact h.answer 0
  | toggle hk => exact ((h.setScale _).markEdit).answer 0
  | recallBank hb => exact ((h.recallBank _).markEdit).answer 0
  | savebank hb => exact { h with bank := Memory.wf_bankWrite _ _ h.bank }
  | setscale v => exact ((h.setScale v).markEdit).answer 0
  | setgli hi => exact ((h.setgli hi).markEdit).answer 0
  | setrot hr =>
    have hs := (Configuration.legal_iff.mp h.config).1
    exact ((h.writeScale hs hr).markEdit).answer 0
  | settrg v | settrc v | setofg v | setofc v | setleg f | setqm hm =>
    exact { h.markEdit with }
  | settds hd => exact ((h.settds hd).markEdit).answer 0
  | setauxm a hm => exact ((h.setauxm a _).markEdit).answer 0
  | kbdoff | kbdon => exact { h with }
  | kbdnote o hn =>
    refine { h with kbdnote := ?_ }
    have ho := o.isLt
    rw [answer_kbdnote, toNat_kbdNoteOf hn]
    omega
  | trigedge c => exact (h.setChan c (r := { s.chan c with elatch := true }) (h.channels c)).answer 0
  | hret hh =>
    refine { h with start := fun hi => ?_ }
    obtain ⟨hpends, hpendh, -⟩ := h.start hi
    exact ⟨hpends, hpendh, rfl⟩
  | commitSaved | commitIdle => exact { h with }
  | start => exact { h with start := fun hi => by cases hi }
  | cfgdef => exact { h.cfgdef with savetmr := Nat.zero_le _ }
  | rdreg addr => exact h.answer _

/-! ### The invocations -/

theorem Inv.setAuxlast (h : Inv s) (a : Aux) (q : BitVec 7) : Inv (s.setAuxlast a q) := by
  cases a <;> exact { h with }

/-- The gate-length mapping, made by an input in gate-length mode: index and remainder lie in their columns
(43_aux_processor.md R185, 10_state.md R28). -/
theorem Inv.gateOverlay (h : Inv s) {a : Aux} (hm : s.auxm a = .gateLength) (raw : BitVec 10) :
    Inv (gateOverlay raw s) := by
  have hraw := raw.isLt
  have hzero := (Params.valid_iff.mp h.params).gateZero
  have hgr : (BitVec.ofInt 6 (((raw.toNat : Int) - s.params.gateZero) % 40)).toNat ≤ 39 := by
    rw [BitVec.toNat_ofInt]
    omega
  have hgi : (BitVec.ofInt 8 (((raw.toNat : Int) - s.params.gateZero) / 40)).toInt =
      ((raw.toNat : Int) - s.params.gateZero) / 40 := toInt_ofInt_centred (by omega) (by omega)
  obtain ⟨hrot, -, -, -, hsum⟩ := h.overlay
  exact { h with
    overlay := ⟨hrot, by simp only [Machine.gateOverlay, recomputeGate_ov, hgi]; omega,
      by simp only [Machine.gateOverlay, recomputeGate_ov, hgi]; omega, hgr, hsum⟩
    owned := ⟨h.owned.1, fun ha => absurd hm (ha a)⟩
    gatelen := (toNat_ofInt_gateLen h.params hgr).1
    gateMax := (toNat_ofInt_gateLen h.params hgr).2 }

/-- Each effect of a changed value, made by an input in the mode of the effect. -/
theorem Inv.auxEffect (h : Inv s) {a : Aux} {m : AuxMode} (hm : s.auxm a = m) {v : Int} (hlo : -127 ≤ v) (hhi : v ≤ 127) :
    Inv (auxEffect a m v s) := by
  have hv : -127 ≤ (BitVec.ofInt 8 v).toInt := by rwa [toInt_ofInt_centred hlo hhi]
  cases m with
  | rotate =>
    obtain ⟨-, hrest⟩ := h.overlay
    have hrot : (BitVec.ofNat 4 (mod12 v).val).toNat ≤ 11 := by
      have := (mod12 v).isLt
      rw [BitVec.toNat_ofNat]
      omega
    exact { h with
      overlay := ⟨hrot, hrest⟩
      owned := ⟨fun ha => absurd hm (ha a), h.owned.2⟩
      rscale := rfl }
  | transpose => exact (h.setTr a .ch0 hv).setTr a .ch1 hv
  | transpose1 => exact h.setTr a _ hv
  | offset => exact (h.setOf a .ch0 hv).setOf a .ch1 hv
  | offset1 => exact h.setOf a _ hv
  | scaleRecall => exact h.recallBank _
  | gateLength | off => exact h

theorem Inv.auxChange (h : Inv s) (a : Aux) (raw : BitVec 10) : Inv (auxChange a raw s) := by
  rcases auxChange_cases a raw s with e | ⟨q, -, -, e⟩ <;> rw [e]
  · exact h
  · have hq := q.isLt
    have hcenter := (Params.valid_iff.mp h.params).auxCenter
    exact (h.setAuxlast a q).auxEffect (by cases a <;> rfl) (by omega) (by omega)

theorem Inv.auxProc (h : Inv s) (a : Aux) (raw : BitVec 10) : Inv (auxProc a raw s) := by
  unfold Machine.auxProc
  split
  · next hm => exact (h.gateOverlay hm raw).auxChange a raw
  · exact h.auxChange a raw

theorem Inv.chanProc (h : Inv s) (c : Chan) (raw : BitVec 10) (lvl : Bool) : Inv (chanProc c raw lvl s) := by
  obtain ⟨r, k0, k1, ports, e, hr⟩ := chanProc_cases c raw lvl s
  have hin := Channel.sound_channelInput h.params h.gateMax s.cfg.tds lvl (h.channels c)
  have hsound : r.sound s.params := by
    rcases hr with rfl | ⟨n, rfl⟩
    · exact hin
    · exact Channel.sound_acceptNote h.params s.cfg.legato n hin
  rw [e]
  exact { h.setChan c hsound with }

theorem Inv.serveSample (h : Inv s) : Inv (serveSample s) := by
  have hentry : Inv { s with pends := false, nextch := s.nextch + 1, ports := Ports.idle } :=
    { h with start := fun hi => ⟨rfl, (h.start hi).2⟩ }
  unfold Machine.serveSample
  cases served s.nextch with
  | channel c => exact hentry.chanProc c _ _
  | auxiliary a => exact hentry.auxProc a _

/-! ### The scheduler and the reset -/

theorem Inv.latchSample (h : Inv s) (a : BitVec 12) : Inv (latchSample a s) := by
  rcases latchSample_cases a s with ⟨-, e⟩ | ⟨hi, e⟩ <;> rw [e]
  · exact h
  · exact { h with start := fun hn => absurd (hi.symm.trans hn) (by decide) }

theorem Inv.latchTick (h : Inv s) : Inv (latchTick s) := by
  rcases latchTick_cases s with ⟨-, e⟩ | ⟨hi, e⟩ <;> rw [e]
  · exact h
  · exact { h with start := fun hn => absurd (hi.symm.trans hn) (by decide) }

/-- The housekeeping level is entered only after `START`. -/
theorem Inv.enterHousekeeping (h : Inv s) (hi : s.ien = true) : Inv (enterHousekeeping s) :=
  { h with
    savetmr := by
      rw [enterHousekeeping_savetmr_toNat]
      exact (Nat.sub_le _ _).trans h.savetmr
    start := fun hn => absurd (hi.symm.trans hn) (by decide) }

/-- The reset state over any sound bank memory: `State.resetWith` and `laterReset` are both of this form. -/
theorem inv_reset {p : Params} (hp : p.valid = true) {bank : Memory} (hb : bank.wf = true) (busy : Bool)
    (input : List Input) : Inv { State.resetWith p with bank := bank, storageBusy := busy, input := input } where
  params := hp
  config := (Params.valid_iff.mp hp).defaults
  rscale := rfl
  gatelen := by
    change ((BitVec.ofInt 16 (gateLen p p.defaults.gli.toNat 0 0)).toNat : Int) =
      gateLen p p.defaults.gli.toNat (0#8).toInt (0#6).toNat
    simpa using (toNat_ofInt_gateLen hp (Nat.zero_le _)).1
  gateMax := by
    change (BitVec.ofInt 16 (gateLen p p.defaults.gli.toNat 0 0)).toNat ≤ 32767
    exact (toNat_ofInt_gateLen hp (Nat.zero_le _)).2
  overlay := Overlay.sound_neutral
  owned := ⟨fun _ => rfl, fun _ => ⟨rfl, rfl⟩⟩
  channels := fun c => by cases c <;> exact Channel.sound_reset p
  kbdnote := Nat.zero_le _
  savetmr := Nat.zero_le _
  bank := hb
  start := fun _ => ⟨rfl, rfl, rfl⟩

theorem inv_resetWith {p : Params} (hp : p.valid = true) : Inv (State.resetWith p) :=
  inv_reset hp (Memory.wf_ofBank0 p.bank0) false []

theorem Inv.laterReset (h : Inv s) : Inv (laterReset s) := inv_reset h.params h.bank s.storageBusy s.input

/-- Every step keeps the invariant. -/
theorem Inv.steps (h : Inv s) {t : State} (hs : Steps s t) : Inv t := by
  cases hs with
  | storage ha => exact { h with }
  | reset ha => exact h.consume.laterReset
  | sample ha => exact h.consume.latchSample _
  | tick ha => exact h.consume.latchTick
  | sdisp ha => exact h.consumeQuiet.serveSample
  | hdisp ha =>
    obtain ⟨hi, -⟩ := hdispEnabled_iff.mp (nextAction_hdisp ha)
    exact h.consumeQuiet.enterHousekeeping (by rw [consumeQuiet_eq]; exact hi)
  | command ha hd hc => exact h.consume.completes hc
  | wait ha => exact h.consumeQuiet

theorem Inv.afterRefusal (h : Inv s) (r : Refusal) : Inv (afterRefusal r s) := by
  unfold Machine.afterRefusal
  split
  · exact { h with }
  · exact h

/-! ### The eight invariants of the spec -/

theorem extractLsb'_rot_low (scale : BitVec 16) (brot arot : BitVec 4) : (rot scale brot arot).extractLsb' 0 4 = 0 :=
  BitVec.extractLsb'_append_eq_right

/-- The invariant gives (a) to (h) of 10_state.md R51. -/
theorem Inv.betweenOperations (h : Inv s) : BetweenOperations s where
  lowBits := ⟨(Configuration.legal_iff.mp h.config).1, by rw [h.rscale]; exact extractLsb'_rot_low _ _ _⟩
  rscale := h.rscale
  gatelen := h.gatelen
  config := by
    obtain ⟨-, hgli, hbrot, htds⟩ := Configuration.legal_iff.mp h.config
    refine ⟨by omega, by omega, by omega, ?_, fun a => ?_⟩
    · cases s.cfg.qmode <;> decide
    · cases s.auxm a <;> decide
  out := fun c => by
    have := (s.chan c).out.isLt
    omega
  level := fun hh => by simp [commandLevel, hh]
  gatePhase := fun c => (h.channels c).1
  trigCount := fun c => by
    obtain ⟨-, htcnt, -⟩ := h.channels c
    exact htcnt

/-- Settles O53, by the cases of a step: each operation keeps `Inv`, and `Inv` gives the eight invariants. -/
theorem stepKeepsInvariant : Obligations.StepKeepsInvariant :=
  ⟨fun _ _ h hs => ⟨h.steps (steps_of_step hs), (h.steps (steps_of_step hs)).betweenOperations⟩,
    fun _ r h _ => ⟨h.afterRefusal r, (h.afterRefusal r).betweenOperations⟩⟩

end Sys2Proof.Machine
end

section
/-! The reset state (10_state.md R49, 70_reset_and_hazards.md R270). -/

namespace Sys2Proof.Machine

/-- Loading the first `n` banks makes each of them read its word of `BANK0`. -/
theorem Memory.bankRead_loadBanks (bank0 : Vector (BitVec 16) 12) :
    ∀ (n : Nat) (b : Fin 12), b.val < n → n ≤ 12 → (Memory.loadBanks bank0 n).bankRead b = bank0[b]
  | 0, _, hb, _ => absurd hb (Nat.not_lt_zero _)
  | n + 1, b, hb, hn => by
    have hlt : n < 12 := by omega
    rw [Memory.loadBanks, dif_pos hlt]
    by_cases hbn : b = ⟨n, hlt⟩
    · rw [hbn, Memory.bankRead_bankWrite_self _ _ (Memory.wf_loadBanks bank0 n)]
      simp [Vector.getD, hlt]
    · have hval : b.val ≠ n := fun e => hbn (Fin.ext e)
      rw [Memory.bankRead_bankWrite_of_ne _ _ hbn]
      exact Memory.bankRead_loadBanks bank0 n b (by omega) (by omega)

/-- The bank memory of the first reset holds `BANK0` (20_memory.md R62). -/
theorem State.resetWith_bankRead (p : Params) (b : Fin 12) : (State.resetWith p).bank.bankRead b = p.bank0[b] := by
  simp only [State.resetWith, Memory.ofBank0]
  exact Memory.bankRead_loadBanks p.bank0 12 b b.isLt le_rfl

/-- `GATELEN` of the built-in defaults is the first table entry. -/
theorem toNat_gateLen_builtin {p : Params} (hp : p.valid = true) :
    (BitVec.ofInt 16 (gateLen p Configuration.builtin.gli.toNat 0 0)).toNat = p.gateAt 0 := by
  have hfit := (toNat_ofInt_gateLen hp (gli := Configuration.builtin.gli.toNat) (gi := 0) (gr := 0) (Nat.zero_le _)).1
  rw [gateLen_neutral p (by decide)] at hfit ⊢
  exact_mod_cast hfit

/-- Every reset leaves the values of R49's table: `State.resetWith` but for the bank memory and the fields of the
environment. -/
theorem eq_resetWith_of_reset {p : Params} {s : State} (h : s = State.resetWith p ∨ ∃ u, u.params = p ∧ s = laterReset u) :
    ∃ bank busy input, s = { State.resetWith p with bank := bank, storageBusy := busy, input := input } := by
  rcases h with rfl | ⟨u, rfl, rfl⟩
  · exact ⟨Memory.ofBank0 p.bank0, false, [], rfl⟩
  · exact ⟨u.bank, u.storageBusy, u.input, rfl⟩

/-- Settles O51: a reset of either kind writes R49's table over a bank memory, and `loadBanks` writes every word of `BANK0`. -/
theorem resetState : Obligations.ResetState := by
  refine ⟨fun p s hs => ?_, State.resetWith_bankRead, fun u => rfl⟩
  obtain ⟨bank, busy, input, rfl⟩ := eq_resetWith_of_reset hs
  refine ⟨rfl, rfl, rfl, fun c => ?_, rfl, rfl, rfl, rfl, rfl, rfl, rfl, rfl, rfl, rfl, rfl, rfl, rfl, rfl, rfl, rfl,
    fun hp hd => ?_⟩
  · cases c <;> exact ⟨rfl, rfl, rfl, rfl, rfl, rfl, rfl, rfl, rfl, rfl⟩
  · have hfirst := (Params.valid_iff.mp hp).gateFirst.1
    simp only [State.resetWith, hd]
    exact ⟨rfl, by decide, toNat_gateLen_builtin hp, hfirst, rfl, rfl⟩

/-- Settles O52: the base case of the invariant, and the reset item of the environment's stream. -/
theorem resetMeetsInvariant : Obligations.ResetMeetsInvariant := by
  have href : Params.ref.valid = true := by decide
  refine ⟨fun p hp => inv_resetWith hp, href, rfl, inv_resetWith href, fun s rest hin => ⟨?_, rfl⟩⟩
  have hnext : nextAction s = .reset := by simp [nextAction, hin]
  simp [step, hnext, perform, State.consume, hin]

end Sys2Proof.Machine
end

section
/-! The register map (46_system_ops.md R226): what the views give, and the addresses that are not mapped. -/

namespace Sys2Proof.Machine

/-- A bit of `BANKOCC` (20_memory.md R64). -/
theorem getLsbD_bankOcc (m : Memory) (b : Fin 12) :
    (bankOcc m).getLsbD b.val = decide ((m.bankRead b).extractLsb' 4 12 ≠ 0#12) := by
  have hb := b.isLt
  rw [bankOcc, BitVec.getLsbD_eq_getElem hb, BitVec.getElem_ofFnLE]
  simp [emptyScale]

@[simp] theorem toNat_readFlag (b : Bool) : (readFlag b).toNat = b.toNat := by cases b <;> rfl

theorem toNat_istat (s : State) :
    (istat s).toNat = 8 * s.hact.toNat + 4 * s.pendh.toNat + 2 * s.pends.toNat + s.ien.toNat := by
  unfold istat
  cases s.hact <;> cases s.pendh <;> cases s.pends <;> cases s.ien <;> rfl

theorem readConfig_unmapped (c : Configuration) {n : Nat} (h : 12 ≤ n) : readConfig c n = 0 := by
  unfold readConfig
  split
  case h_13 => rfl
  all_goals omega

theorem readOther_unmapped (s : State) {n : Nat}
    (h : n ∉ [0x10, 0x11, 0x40, 0x41, 0x48, 0x49, 0x4A, 0x50, 0x51, 0x52, 0x53, 0x54, 0x60]) : readOther s n = 0 := by
  unfold readOther
  split
  case h_14 => rfl
  all_goals simp at h

theorem regRead_bank (s : State) (b : Fin 12) : regRead s (BitVec.ofNat 8 (0x70 + b.val)) = s.bank.bankRead b := by
  have hb := b.isLt
  have hn : (BitVec.ofNat 8 (0x70 + b.val)).toNat = 0x70 + b.val := by
    rw [BitVec.toNat_ofNat]
    omega
  unfold regRead
  simp only [hn]
  rw [if_neg (by omega), if_neg (by omega), if_neg (by omega), if_neg (by omega), dif_pos (by omega)]
  congr 1
  exact Fin.ext (by simp)

/-- An address outside the map reads 0 (10_state.md R21). -/
theorem regRead_unmapped (s : State) {addr : BitVec 8}
    (h : addr.toNat ∉ List.range 0x0C ++ [0x10, 0x11] ++ List.range' 0x18 11 ++ List.range' 0x30 16 ++
      [0x40, 0x41, 0x48, 0x49, 0x4A] ++ List.range' 0x50 5 ++ [0x60] ++ List.range' 0x70 12) :
    regRead s addr = 0#16 := by
  simp only [List.mem_append, List.mem_range, List.mem_range'_1, List.mem_cons, List.not_mem_nil, or_false] at h
  unfold regRead
  dsimp only
  split
  · exact readConfig_unmapped _ (by omega)
  · rw [if_neg (by omega), if_neg (by omega), if_neg (by omega), dif_neg (by omega)]
    refine readOther_unmapped s fun hmem => ?_
    simp only [List.mem_cons, List.not_mem_nil, or_false] at hmem
    omega

/-- Settles O22, register by register; the flags are read as the numbers 0 and 1. -/
theorem registerMap : Obligations.RegisterMap := by
  intro s
  refine ⟨⟨rfl, rfl, rfl, rfl, rfl, rfl, rfl, toNat_readFlag _, rfl, rfl, rfl, rfl⟩,
    ⟨rfl, rfl, rfl, rfl, rfl, rfl, rfl, rfl, rfl, rfl, rfl, rfl, rfl⟩, fun c base hbase => ?_, ?_, fun b => ?_, fun i hi => ?_,
    fun addr => regRead_unmapped s⟩
  · have hmode : ∀ m : ChanMode,
        (readUnsigned (chanModeBits m)).toNat = (match m with | .freeRunning => 0 | .triggered => 1) := by
      intro m; cases m <;> rfl
    cases c <;> subst hbase <;>
      exact ⟨rfl, rfl, rfl, hmode _, rfl, rfl, toNat_readFlag _, toNat_readFlag _⟩
  · refine ⟨rfl, rfl, toNat_readFlag _, rfl, ?_, rfl, ?_, rfl, toNat_readFlag _, rfl⟩
    · change (readUnsigned (BitVec.ofBool s.kbdtrig1 ++ BitVec.ofBool s.kbdtrig0)).toNat = _
      cases s.kbdtrig1 <;> cases s.kbdtrig0 <;> rfl
    · change (readUnsigned (istat s)).toNat = _
      have hlt := (istat s).isLt
      rw [readUnsigned, BitVec.toNat_setWidth, Nat.mod_eq_of_lt (by omega), toNat_istat]
  · refine ⟨regRead_bank s b, ?_⟩
    change (readUnsigned (bankOcc s.bank)).getLsbD b.val = _
    have hb : b.val < 16 := by omega
    rw [readUnsigned, BitVec.getLsbD_setWidth, getLsbD_bankOcc, decide_eq_true hb, Bool.true_and]
  · change (readUnsigned (bankOcc s.bank)).getLsbD i = _
    rw [readUnsigned, BitVec.getLsbD_setWidth, BitVec.getLsbD_of_ge _ _ hi, Bool.and_false]

end Sys2Proof.Machine
end

section
/-! The decoder read backwards (30_encoding.md R84, R85): a command word that decodes is the encoding of what it decodes to. -/

namespace Sys2Proof

/-- A command word is put together again from its three fields (30_encoding.md R81). -/
theorem commandWord_fields (w : BitVec 24) : commandWord (fieldOP w) (fieldIX w) (fieldDATA w) = .cmd w := by
  have hfields : fieldOP w ++ fieldIX w ++ fieldDATA w = w := by
    rw [fieldOP, fieldIX, fieldDATA, BitVec.extractLsb'_append_extractLsb'_eq_extractLsb' (by rfl),
      BitVec.extractLsb'_append_extractLsb'_eq_extractLsb' (by rfl)]
    exact BitVec.extractLsb'_eq_self
  rw [commandWord, hfields]

/-! ### Operand fields below bits that must be zero (30_encoding.md R84) -/

theorem zero_append_low {n k : Nat} {d : BitVec (n + k)} (h : d.extractLsb' k n = 0#n) :
    0#n ++ d.extractLsb' 0 k = d := by
  rw [← h, BitVec.extractLsb'_append_extractLsb'_eq_extractLsb' (by simp)]
  exact BitVec.extractLsb'_eq_self

theorem zero_append_low_bit {n : Nat} {d : BitVec (n + 1)} (h : d.extractLsb' 1 n = 0#n) :
    0#n ++ BitVec.ofBool (d.getLsbD 0) = d := by
  have hbit : BitVec.ofBool (d.getLsbD 0) = d.extractLsb' 0 1 := by ext i hi; simp [show i = 0 by omega]
  rw [hbit, zero_append_low h]

theorem zero_append_two_fields {d : BitVec 16} (h : d.extractLsb' 8 8 = 0#8) :
    0#8 ++ d.extractLsb' 4 4 ++ d.extractLsb' 0 4 = d := by
  rw [← h, BitVec.extractLsb'_append_extractLsb'_eq_extractLsb' (by rfl),
    BitVec.extractLsb'_append_extractLsb'_eq_extractLsb' (by rfl)]
  exact BitVec.extractLsb'_eq_self

theorem auxIndex_of_low_bit : ∀ {ix : BitVec 4}, ix.extractLsb' 1 3 = 0#3 →
    (if ix.getLsbD 0 then Aux.in1 else Aux.in0).index = ix := by decide

theorem chanIndex_of_low_bit : ∀ {ix : BitVec 4}, ix.extractLsb' 1 3 = 0#3 →
    (if ix.getLsbD 0 then Chan.ch1 else Chan.ch0).index = ix := by decide

/-! ### The rows -/

theorem encode_of_rowIf {zero : Prop} [Decidable zero] {i j : Instr} {p : PortWord}
    (h : rowIf (decide zero) i = some j) (hi : zero → encode i = p) : encode j = p := by
  unfold rowIf at h
  split at h <;> cases h
  exact hi (of_decide_eq_true ‹_›)

theorem encode_of_selectSet {ix : BitVec 4} {d : BitVec 16} {i : Instr} (h : selectSet ix d = some i) :
    encode i = commandWord 4 ix d := by
  have hix : ix = BitVec.ofNat 4 ix.toNat := by simp
  unfold selectSet at h
  split at h <;> rename_i hn
  case h_11 => cases h
  all_goals rw [hix, hn]
  case h_1 => cases h; rfl
  case h_8 => exact encode_of_rowIf h fun hz => congrArg (commandWord 4 7) (zero_append_low_bit hz)
  all_goals exact encode_of_rowIf h fun hz => congrArg (commandWord 4 _) (zero_append_low hz)

theorem encode_of_selectKbd {ix : BitVec 4} {d : BitVec 16} {i : Instr} (h : selectKbd ix d = some i) :
    encode i = commandWord 6 ix d := by
  have hix : ix = BitVec.ofNat 4 ix.toNat := by simp
  unfold selectKbd at h
  split at h <;> rename_i hn
  case h_4 => cases h
  all_goals rw [hix, hn]
  case h_3 => exact encode_of_rowIf h fun hz => congrArg (commandWord 6 2) (zero_append_two_fields hz)
  all_goals exact encode_of_rowIf h fun hz => hz ▸ rfl

theorem encode_of_selectRow {w : BitVec 24} {i : Instr} (h : selectRow w = some i) : encode i = .cmd w := by
  rw [← commandWord_fields w]
  have hop : fieldOP w = BitVec.ofNat 4 (fieldOP w).toNat := by simp
  unfold selectRow at h
  dsimp only at h
  split at h <;> rename_i hn
  case h_14 => cases h
  all_goals rw [hop, hn]
  case h_5 => exact encode_of_selectSet h
  case h_7 => exact encode_of_selectKbd h
  case h_6 =>
    exact encode_of_rowIf h fun ⟨hix, hd⟩ => congrArg₂ (commandWord 5) (auxIndex_of_low_bit hix) (zero_append_low hd)
  case h_8 =>
    exact encode_of_rowIf h fun ⟨hix, hd⟩ => congrArg₂ (commandWord 7) (chanIndex_of_low_bit hix) hd.symm
  case h_13 =>
    exact encode_of_rowIf h fun ⟨hix, hd⟩ => congrArg₂ (commandWord 0xC) hix.symm (zero_append_low hd)
  case h_2 | h_3 | h_4 => exact encode_of_rowIf h fun hd => congrArg (commandWord _ _) hd.symm
  all_goals exact encode_of_rowIf h fun ⟨hix, hd⟩ => congrArg₂ (commandWord _) hix.symm hd.symm

/-- A command word that decodes is the encoding of what it decodes to (30_encoding.md R85). -/
theorem encode_of_decode_cmd {w : BitVec 24} {i : Instr} (h : decode (.cmd w) = .ok i) : encode i = .cmd w := by
  simp only [decode, decodeCommand] at h
  split at h
  · cases h
  · next j hj =>
    unfold checkOperands at h
    split at h <;> cases h
    exact encode_of_selectRow hj

end Sys2Proof
end

section
/-! Who writes the bank memory and `SAVEPEND` (20_memory.md R62, 46_system_ops.md R222, R228, R229). -/

namespace Sys2Proof.Machine

/-! ### The dispatches -/

@[simp] theorem consumeQuiet_bank (s : State) : s.consumeQuiet.bank = s.bank := by rw [consumeQuiet_eq]
@[simp] theorem consumeQuiet_savepend (s : State) : s.consumeQuiet.savepend = s.savepend := by rw [consumeQuiet_eq]

@[simp] theorem serveSample_bank (s : State) : (serveSample s).bank = s.bank := by
  cases h : served s.nextch with
  | channel c => obtain ⟨_, _, _, _, e⟩ := serveSample_channel h; simp [e]
  | auxiliary a => obtain ⟨_, _, _, _, _, e, -⟩ := serveSample_auxiliary h; simp [e]

@[simp] theorem serveSample_savepend (s : State) : (serveSample s).savepend = s.savepend := by
  cases h : served s.nextch with
  | channel c => obtain ⟨_, _, _, _, e⟩ := serveSample_channel h; simp [e]
  | auxiliary a => obtain ⟨_, _, _, _, _, e, -⟩ := serveSample_auxiliary h; simp [e]

/-! ### The command words -/

section
variable {s t : State} {i : Instr}

theorem commitReady_iff : commitReady s = true ↔ s.savepend = true ∧ s.savetmr = 0#16 ∧ s.storageBusy = false := by
  simp [commitReady, and_assoc]

/-- A command word that changes the bank memory is `SAVEBANK` (20_memory.md R62). -/
theorem Completes.bank_writer (h : Completes s i t) (hne : t.bank ≠ s.bank) : ∃ b, i = .savebank b := by
  cases h with
  | savebank => exact ⟨_, rfl⟩
  | setauxm | cfgdef => simp [releaseAux_eq, loadDefaults] at hne
  | trigedge c => simp at hne
  | nop | toggle | recallBank | setscale | setgli | setrot | settrg | settrc | setofg | setofc | setleg | setqm | settds
  | kbdoff | kbdon | kbdnote | hret | commitSaved | commitIdle | start | rdreg => exact absurd rfl hne

/-- A command word that raises `SAVEPEND` is an edit or `CFGDEF` (46_system_ops.md R222, R228). -/
theorem Completes.savepend_raised (h : Completes s i t) (hs : s.savepend = false) (ht : t.savepend = true) :
    i.mnemonic ∈ ["TOGGLE", "RECALL", "SETSCALE", "SETROT", "SETGLI", "SETTRG", "SETTRC", "SETOFG", "SETOFC", "SETLEG",
      "SETQM", "SETTDS", "SETAUXM", "CFGDEF"] := by
  cases h with
  | toggle | recallBank | setscale | setgli | setrot | settrg | settrc | setofg | setofc | setleg | setqm | settds | setauxm
  | cfgdef => simp [Instr.mnemonic]
  | nop | savebank | kbdoff | kbdon | kbdnote | trigedge | hret | commitSaved | commitIdle | start | rdreg =>
    simp [saveBank, hs] at ht

/-- A command word that clears `SAVEPEND` is a `COMMIT` that saves, and it drives `cfg_save` with the whole Configuration
(46_system_ops.md R229). -/
theorem Completes.savepend_cleared (h : Completes s i t) (hs : s.savepend = true) (ht : t.savepend = false) :
    i = .commit ∧ s.hact = false ∧ commitReady s = true ∧ t.ports.cfgSave = some s.cfg := by
  cases h with
  | commitSaved hh hr => exact ⟨rfl, hh, hr, rfl⟩
  | nop | toggle | recallBank | savebank | setscale | setgli | setrot | settrg | settrc | setofg | setofc | setleg | setqm
  | settds | setauxm | kbdoff | kbdon | kbdnote | trigedge | hret | commitIdle | start | cfgdef | rdreg =>
    simp [saveBank, hs] at ht

/-- The command word of `COMMIT` is the only one that decodes to it (30_encoding.md R85). -/
theorem eq_commit_word {w : BitVec 24} (h : decode (.cmd w) = .ok .commit) : w = 0x900000 :=
  (PortWord.cmd.inj (encode_of_decode_cmd h)).symm

end

/-! ### The step -/

/-- A step that runs no command word leaves the bank memory, and `SAVEPEND` but for a reset, which clears it. -/
theorem Steps.command_or_same_bank {s t : State} (h : Steps s t) :
    (∃ w i, nextAction s = .command w ∧ decode (.cmd w) = .ok i ∧ Completes s.consume i t) ∨
    t.bank = s.bank ∧ (t.savepend = s.savepend ∨ nextAction s = .reset ∧ t.savepend = false) := by
  cases h with
  | command ha hd hc => exact .inl ⟨_, _, ha, hd, hc⟩
  | reset ha => exact .inr ⟨rfl, .inr ⟨ha, rfl⟩⟩
  | sample => rcases latchSample_cases _ s.consume with ⟨-, e⟩ | ⟨-, e⟩ <;> rw [e] <;> exact .inr ⟨rfl, .inl rfl⟩
  | tick => rcases latchTick_cases s.consume with ⟨-, e⟩ | ⟨-, e⟩ <;> rw [e] <;> exact .inr ⟨rfl, .inl rfl⟩
  | storage | sdisp | hdisp | wait => exact .inr ⟨by simp, .inl (by simp)⟩

/-- Settles O57, by the cases of a step: only a command word writes the bank memory or, a reset aside, moves `SAVEPEND`, and
of the command words each clause names the ones that do. -/
theorem bankAndSaveRequestWriters : Obligations.BankAndSaveRequestWriters := by
  intro s t h
  rcases (steps_of_step h).command_or_same_bank with ⟨w, i, ha, hd, hc⟩ | ⟨hbank, hsave⟩
  · refine ⟨fun hne => ?_, fun hs ht => ⟨w, i, ha, hd, hc.savepend_raised hs ht⟩, fun hs ht _ => ?_⟩
    · obtain ⟨b, rfl⟩ := hc.bank_writer hne
      exact ⟨w, b, ha, hd⟩
    · obtain ⟨rfl, hhact, hready, hports⟩ := hc.savepend_cleared hs ht
      obtain ⟨-, htmr, hbusy⟩ := commitReady_iff.mp hready
      exact ⟨eq_commit_word hd ▸ ha, hhact, htmr, hbusy, hports⟩
  · refine ⟨fun hne => absurd hbank hne, fun hs ht => ?_, fun hs ht hr => ?_⟩
    · rcases hsave with e | ⟨-, e⟩ <;> simp [e, hs] at ht
    · rcases hsave with e | ⟨hreset, -⟩
      · simp [e, hs] at ht
      · exact absurd hreset hr

end Sys2Proof.Machine
end

section
/-! The decoder read forwards (30_encoding.md R84, R85): what `selectRow` answers at a major opcode, and that on the encoder's
word of an instruction it answers that instruction. -/

namespace Sys2Proof

/-! ### The fields of a word put together from fields (30_encoding.md R81) -/

theorem fieldOP_append (op ix : BitVec 4) (d : BitVec 16) : fieldOP (op ++ ix ++ d) = op := by
  rw [fieldOP, BitVec.extractLsb'_append_eq_of_le (by decide)]
  exact BitVec.extractLsb'_append_eq_left

theorem fieldIX_append (op ix : BitVec 4) (d : BitVec 16) : fieldIX (op ++ ix ++ d) = ix := by
  rw [fieldIX, BitVec.extractLsb'_append_eq_of_le (by decide)]
  exact BitVec.extractLsb'_append_eq_right

theorem fieldDATA_append (op ix : BitVec 4) (d : BitVec 16) : fieldDATA (op ++ ix ++ d) = d :=
  BitVec.extractLsb'_append_eq_right

theorem fields_of_commandWord {op ix : BitVec 4} {d : BitVec 16} {w : BitVec 24} (h : commandWord op ix d = .cmd w) :
    fieldOP w = op ∧ fieldIX w = ix ∧ fieldDATA w = d := by
  obtain rfl := PortWord.cmd.inj h
  exact ⟨fieldOP_append op ix d, fieldIX_append op ix d, fieldDATA_append op ix d⟩

/-! ### The rows that carry an operand, by their major opcode (30_encoding.md R85) -/

section
variable {w : BitVec 24}

theorem selectRow_toggle (h : fieldOP w = 0x1#4) :
    selectRow w = rowIf (decide (fieldDATA w = 0)) (.toggle (fieldIX w)) := by simp only [selectRow, h]; rfl

theorem selectRow_recall (h : fieldOP w = 0x2#4) :
    selectRow w = rowIf (decide (fieldDATA w = 0)) (.recall (fieldIX w)) := by simp only [selectRow, h]; rfl

theorem selectRow_savebank (h : fieldOP w = 0x3#4) :
    selectRow w = rowIf (decide (fieldDATA w = 0)) (.savebank (fieldIX w)) := by simp only [selectRow, h]; rfl

theorem selectRow_set (h : fieldOP w = 0x4#4) : selectRow w = selectSet (fieldIX w) (fieldDATA w) := by
  simp only [selectRow, h]; rfl

theorem selectRow_setauxm (h : fieldOP w = 0x5#4) :
    selectRow w = rowIf (decide ((fieldIX w).extractLsb' 1 3 = 0 ∧ (fieldDATA w).extractLsb' 8 8 = 0))
      (.setauxm (if (fieldIX w).getLsbD 0 then .in1 else .in0) ((fieldDATA w).extractLsb' 0 8)) := by
  simp only [selectRow, h]; rfl

theorem selectRow_kbd (h : fieldOP w = 0x6#4) : selectRow w = selectKbd (fieldIX w) (fieldDATA w) := by
  simp only [selectRow, h]; rfl

theorem selectRow_trigedge (h : fieldOP w = 0x7#4) :
    selectRow w = rowIf (decide ((fieldIX w).extractLsb' 1 3 = 0 ∧ fieldDATA w = 0))
      (.trigedge (if (fieldIX w).getLsbD 0 then .ch1 else .ch0)) := by simp only [selectRow, h]; rfl

theorem selectRow_rdreg (h : fieldOP w = 0xC#4) :
    selectRow w = rowIf (decide (fieldIX w = 0 ∧ (fieldDATA w).extractLsb' 8 8 = 0))
      (.rdreg ((fieldDATA w).extractLsb' 0 8)) := by simp only [selectRow, h]; rfl

end

/-! ### The encoder's word -/

theorem rowIf_eq_some {zero : Prop} [Decidable zero] {i j : Instr} (hz : zero) (hi : i = j) :
    rowIf (decide zero) i = some j := by simp [rowIf, hz, hi]

theorem selectRow_of_encode {i : Instr} {w : BitVec 24} (h : encode i = .cmd w) : selectRow w = some i := by
  cases i with
  | adcdone | hktick => cases h
  | nop | kbdoff | kbdon | hret | commit | start | cfgdef => cases h; rfl
  | toggle k =>
    obtain ⟨hop, hix, hd⟩ := fields_of_commandWord h
    rw [selectRow_toggle hop, hix, hd]; rfl
  | savebank b =>
    obtain ⟨hop, hix, hd⟩ := fields_of_commandWord h
    rw [selectRow_savebank hop, hix, hd]; rfl
  | setscale v =>
    obtain ⟨hop, hix, hd⟩ := fields_of_commandWord h
    rw [selectRow_set hop, hix, hd]; rfl
  | setgli | setrot | settrg | settrc | setofg | setofc | setqm | settds =>
    obtain ⟨hop, hix, hd⟩ := fields_of_commandWord h
    rw [selectRow_set hop, hix, hd]
    exact rowIf_eq_some BitVec.extractLsb'_append_eq_left (congrArg _ BitVec.extractLsb'_append_eq_right)
  | setleg f => cases h; cases f <;> rfl
  | setauxm a m =>
    obtain ⟨hop, hix, hd⟩ := fields_of_commandWord h
    rw [selectRow_setauxm hop, hix, hd]
    cases a <;>
      exact rowIf_eq_some ⟨by decide, BitVec.extractLsb'_append_eq_left⟩
        (congrArg (Instr.setauxm _) BitVec.extractLsb'_append_eq_right)
  | kbdnote o n =>
    obtain ⟨hop, hix, hd⟩ := fields_of_commandWord h
    rw [selectRow_kbd hop, hix, hd]
    have hzero : (0#8 ++ o ++ n).extractLsb' 8 8 = 0#8 := by
      rw [BitVec.extractLsb'_append_eq_of_le (by decide)]
      exact BitVec.extractLsb'_append_eq_left
    have hoctave : (0#8 ++ o ++ n).extractLsb' 4 4 = o := by
      rw [BitVec.extractLsb'_append_eq_of_le (by decide)]
      exact BitVec.extractLsb'_append_eq_right
    exact rowIf_eq_some hzero (congrArg₂ Instr.kbdnote hoctave BitVec.extractLsb'_append_eq_right)
  | trigedge c => cases h; cases c <;> rfl
  | rdreg addr =>
    obtain ⟨hop, hix, hd⟩ := fields_of_commandWord h
    rw [selectRow_rdreg hop, hix, hd]
    exact rowIf_eq_some ⟨rfl, BitVec.extractLsb'_append_eq_left⟩ (congrArg _ BitVec.extractLsb'_append_eq_right)
  | _ =>
    -- `RECALL`, whose constructor's name is a keyword where a case is named
    obtain ⟨hop, hix, hd⟩ := fields_of_commandWord h
    rw [selectRow_recall hop, hix, hd]; rfl

/-- The row a word selects is the one instruction whose encoding the word is (30_encoding.md R85). -/
theorem selectRow_eq_some_iff {w : BitVec 24} {i : Instr} : selectRow w = some i ↔ encode i = .cmd w :=
  ⟨encode_of_selectRow, selectRow_of_encode⟩

/-! ### The answers of the decoder (30_encoding.md R86, R87) -/

section
variable {w : BitVec 24} {i : Instr}

theorem decode_cmd_of_none (h : selectRow w = none) : decode (.cmd w) = .error .illegal := by
  simp [decode, decodeCommand, h]

theorem decode_cmd_of_some (h : selectRow w = some i) :
    decode (.cmd w) = if i.wf then .ok i else .error .operand := by
  simp [decode, decodeCommand, checkOperands, h]

theorem decode_cmd_eq_ok_iff : decode (.cmd w) = .ok i ↔ selectRow w = some i ∧ WellFormed i := by
  cases h : selectRow w with
  | none => simp [decode_cmd_of_none h]
  | some j =>
    rw [decode_cmd_of_some h]
    constructor
    · intro hok
      split at hok <;> cases hok
      exact ⟨rfl, ‹_›⟩
    · rintro ⟨⟨⟩, hwf⟩
      exact if_pos hwf

theorem decode_cmd_eq_illegal_iff : decode (.cmd w) = .error .illegal ↔ selectRow w = none := by
  cases h : selectRow w with
  | none => simp [decode_cmd_of_none h]
  | some j => cases hj : j.wf <;> simp [decode_cmd_of_some h, hj]

theorem decode_cmd_eq_operand_iff :
    decode (.cmd w) = .error .operand ↔ ∃ i, selectRow w = some i ∧ i.wf = false := by
  cases h : selectRow w with
  | none => simp [decode_cmd_of_none h]
  | some j => cases hj : j.wf <;> simp [decode_cmd_of_some h, hj]

end

/-- A sample word put together from its fields has those fields (30_encoding.md R82). -/
theorem decodeSample_append (t1 t0 : Bool) (raw : BitVec 10) :
    decodeSample (BitVec.ofBool t1 ++ BitVec.ofBool t0 ++ raw) = .adcdone t1 t0 raw := by
  have hraw : (BitVec.ofBool t1 ++ BitVec.ofBool t0 ++ raw).extractLsb' 0 10 = raw := BitVec.extractLsb'_append_eq_right
  simp only [decodeSample, hraw, BitVec.getLsbD_append]
  cases t1 <;> cases t0 <;> rfl

/-- Settles O1: a command word by the row it selects, an event word by its fields. -/
theorem decodeEncodeRoundTrip : Obligations.DecodeEncodeRoundTrip := by
  intro i hi
  cases hp : encode i with
  | cmd w => exact decode_cmd_eq_ok_iff.mpr ⟨selectRow_of_encode hp, hi⟩
  | adc a =>
    cases i <;> cases hp
    exact congrArg Except.ok (decodeSample_append _ _ _)
  | tick =>
    cases i <;> cases hp
    rfl

/-- Settles O2: the decoder read backwards, at each port. -/
theorem encodeDecodeRoundTrip : Obligations.EncodeDecodeRoundTrip := by
  intro p i h
  cases p with
  | cmd w => exact ⟨encode_of_decode_cmd h, (decode_cmd_eq_ok_iff.mp h).2⟩
  | adc a =>
    cases h
    exact ⟨congrArg PortWord.adc (Machine.sampleWord_fields a), rfl⟩
  | tick =>
    cases h
    exact ⟨rfl, rfl⟩

/-- Settles O6: each word of the examples, decoded and encoded. -/
theorem encodingExamples : Obligations.EncodingExamples :=
  ⟨rfl, rfl, rfl, rfl, rfl, rfl, rfl, rfl, rfl, rfl, rfl, rfl, rfl⟩

end Sys2Proof
end

section
/-! The decoder against the printed opcode map (30_encoding.md R85): a row's `match` and `mask` select a word exactly where
`selectRow` answers an instruction with that row's mnemonic. -/

namespace Sys2Proof

/-! ### The rows of the map among themselves -/

theorem row_eq_of_mnemonic_eq {r₁ r₂ : OpcodeRow} (hr₁ : r₁ ∈ opcodeMap) (hr₂ : r₂ ∈ opcodeMap)
    (h : r₁.mnemonic = r₂.mnemonic) : r₁ = r₂ :=
  List.inj_on_of_nodup_map (f := OpcodeRow.mnemonic) (by decide) hr₁ hr₂ h

/-- Of two different rows of the map, each fixes a bit that the other fixes to the opposite value. -/
theorem mnemonic_eq_of_patterns_agree : ∀ r₁ ∈ opcodeMap, ∀ r₂ ∈ opcodeMap,
    r₁.pattern &&& r₂.mask = r₂.pattern &&& r₁.mask → r₁.mnemonic = r₂.mnemonic := by decide

theorem opcodeMap_disjoint {r₁ r₂ : OpcodeRow} {w : BitVec 24} (hr₁ : r₁ ∈ opcodeMap) (hr₂ : r₂ ∈ opcodeMap)
    (h₁ : r₁.selects w = true) (h₂ : r₂.selects w = true) : r₁ = r₂ := by
  have hw₁ : w &&& r₁.mask = r₁.pattern := of_decide_eq_true h₁
  have hw₂ : w &&& r₂.mask = r₂.pattern := of_decide_eq_true h₂
  refine row_eq_of_mnemonic_eq hr₁ hr₂ (mnemonic_eq_of_patterns_agree r₁ hr₁ r₂ hr₂ ?_)
  rw [← hw₁, ← hw₂, BitVec.and_assoc, BitVec.and_assoc, BitVec.and_comm r₁.mask]

/-! ### A row that matches a word, read as facts about the word's fields (30_encoding.md R81, R84) -/

section
variable {r : OpcodeRow} {w : BitVec 24}

theorem bits_of_selects (h : r.selects w = true) {k n : Nat} {v : BitVec n}
    (hm : r.mask.extractLsb' k n = BitVec.allOnes n) (hp : r.pattern.extractLsb' k n = v) : w.extractLsb' k n = v := by
  have hw : w &&& r.mask = r.pattern := of_decide_eq_true h
  rw [← hp, ← hw, BitVec.extractLsb'_and, hm, BitVec.and_allOnes]

theorem dataBits_of_selects (h : r.selects w = true) {k n : Nat} (hk : k + n ≤ 16)
    (hm : r.mask.extractLsb' k n = BitVec.allOnes n) (hp : r.pattern.extractLsb' k n = 0#n) :
    (fieldDATA w).extractLsb' k n = 0#n := by
  rw [fieldDATA, BitVec.extractLsb'_extractLsb'_of_le hk]
  exact bits_of_selects h hm hp

theorem ixHighBits_of_selects (h : r.selects w = true) (hm : r.mask.extractLsb' 17 3 = BitVec.allOnes 3)
    (hp : r.pattern.extractLsb' 17 3 = 0#3) : (fieldIX w).extractLsb' 1 3 = 0#3 := by
  have hix : (fieldIX w).extractLsb' 1 3 = w.extractLsb' 17 3 := by
    ext i hi
    simp [fieldIX, show 1 + i < 4 by omega, show 16 + (1 + i) = 17 + i by omega]
  rw [hix]
  exact bits_of_selects h hm hp

end

/-! ### A row that matches a word is selected -/

section
variable {r : OpcodeRow} {w : BitVec 24}

theorem exists_selectRow_of_rowIf {zero : Prop} [Decidable zero] {i : Instr} (hw : selectRow w = rowIf (decide zero) i)
    (hz : zero) : ∃ j, selectRow w = some j :=
  ⟨i, hw.trans (rowIf_eq_some hz rfl)⟩

/-- A row that leaves no bit free matches one word, its pattern. -/
theorem exists_selectRow_of_fixed {i : Instr} (h : r.selects w = true) (hm : r.mask = BitVec.allOnes 24)
    (hp : selectRow r.pattern = some i) : ∃ j, selectRow w = some j := by
  have hw : w &&& r.mask = r.pattern := of_decide_eq_true h
  rw [hm, BitVec.and_allOnes] at hw
  exact ⟨i, hw ▸ hp⟩


theorem exists_selectRow_of_selects (hr : r ∈ opcodeMap) (h : r.selects w = true) : ∃ i, selectRow w = some i := by
  simp only [opcodeMap, List.cons_append, List.nil_append, List.mem_cons, List.not_mem_nil, or_false] at hr
  rcases hr with rfl | rfl | rfl | rfl | rfl | rfl | rfl | rfl | rfl | rfl | rfl | rfl | rfl | rfl | rfl | rfl | rfl | rfl |
    rfl | rfl | rfl | rfl | rfl | rfl
  · exact exists_selectRow_of_fixed h rfl rfl
  · exact exists_selectRow_of_rowIf (selectRow_toggle (bits_of_selects h rfl rfl)) (bits_of_selects h rfl rfl)
  · exact exists_selectRow_of_rowIf (selectRow_recall (bits_of_selects h rfl rfl)) (bits_of_selects h rfl rfl)
  · exact exists_selectRow_of_rowIf (selectRow_savebank (bits_of_selects h rfl rfl)) (bits_of_selects h rfl rfl)
  · have hix : fieldIX w = 0#4 := bits_of_selects h rfl rfl
    rw [selectRow_set (bits_of_selects h rfl rfl), hix]
    exact ⟨_, rfl⟩
  -- the other nine rows with major opcode 4, from `SETGLI` to `SETTDS`
  iterate 9
    · have hix : fieldIX w = _ := bits_of_selects h rfl rfl
      have hw := selectRow_set (bits_of_selects h rfl rfl)
      rw [hix] at hw
      exact exists_selectRow_of_rowIf hw (dataBits_of_selects h (by decide) rfl rfl)
  · exact exists_selectRow_of_rowIf (selectRow_setauxm (bits_of_selects h rfl rfl))
      ⟨ixHighBits_of_selects h rfl rfl, dataBits_of_selects h (by decide) rfl rfl⟩
  · exact exists_selectRow_of_fixed h rfl rfl
  · exact exists_selectRow_of_fixed h rfl rfl
  · have hix : fieldIX w = 2#4 := bits_of_selects h rfl rfl
    have hw := selectRow_kbd (bits_of_selects h rfl rfl)
    rw [hix] at hw
    exact exists_selectRow_of_rowIf hw (dataBits_of_selects h (by decide) rfl rfl)
  · exact exists_selectRow_of_rowIf (selectRow_trigedge (bits_of_selects h rfl rfl))
      ⟨ixHighBits_of_selects h rfl rfl, bits_of_selects h rfl rfl⟩
  · exact exists_selectRow_of_fixed h rfl rfl
  · exact exists_selectRow_of_fixed h rfl rfl
  · exact exists_selectRow_of_fixed h rfl rfl
  · exact exists_selectRow_of_fixed h rfl rfl
  · exact exists_selectRow_of_rowIf (selectRow_rdreg (bits_of_selects h rfl rfl))
      ⟨bits_of_selects h rfl rfl, dataBits_of_selects h (by decide) rfl rfl⟩

end

/-! ### A selected row matches the word -/

theorem encodedRow (i : Instr) : Laws.EncodedRow.Statement i :=
  match i with
  | .nop => Laws.EncodedRow.nop
  | .toggle k => Laws.EncodedRow.toggle k
  | .recall b => Laws.EncodedRow.recall b
  | .savebank b => Laws.EncodedRow.savebank b
  | .setscale v => Laws.EncodedRow.setscale v
  | .setgli g => Laws.EncodedRow.setgli g
  | .setrot r => Laws.EncodedRow.setrot r
  | .settrg v => Laws.EncodedRow.settrg v
  | .settrc v => Laws.EncodedRow.settrc v
  | .setofg v => Laws.EncodedRow.setofg v
  | .setofc v => Laws.EncodedRow.setofc v
  | .setleg f => Laws.EncodedRow.setleg f
  | .setqm m => Laws.EncodedRow.setqm m
  | .settds d => Laws.EncodedRow.settds d
  | .setauxm a m => Laws.EncodedRow.setauxm a m
  | .kbdoff => Laws.EncodedRow.kbdoff
  | .kbdon => Laws.EncodedRow.kbdon
  | .kbdnote o n => Laws.EncodedRow.kbdnote o n
  | .trigedge c => Laws.EncodedRow.trigedge c
  | .hret => Laws.EncodedRow.hret
  | .commit => Laws.EncodedRow.commit
  | .start => Laws.EncodedRow.start
  | .cfgdef => Laws.EncodedRow.cfgdef
  | .rdreg addr => Laws.EncodedRow.rdreg addr
  | .adcdone t1 t0 raw => Laws.EncodedRow.adcdone t1 t0 raw
  | .hktick => Laws.EncodedRow.hktick

theorem exists_row_of_selectRow {w : BitVec 24} {i : Instr} (h : selectRow w = some i) :
    ∃ r ∈ opcodeMap, r.mnemonic = i.mnemonic ∧ r.selects w = true := by
  have hrow := encodedRow i
  rwa [Laws.EncodedRow.Statement, encode_of_selectRow h] at hrow

theorem selects_iff_mnemonic_eq {w : BitVec 24} {i : Instr} {r : OpcodeRow} (hi : selectRow w = some i)
    (hr : r ∈ opcodeMap) : r.selects w = true ↔ r.mnemonic = i.mnemonic := by
  obtain ⟨r', hr', hmnemonic, hselects⟩ := exists_row_of_selectRow hi
  constructor
  · intro h
    rw [opcodeMap_disjoint hr hr' h hselects, hmnemonic]
  · intro h
    rwa [row_eq_of_mnemonic_eq hr hr' (h.trans hmnemonic.symm)]

theorem selectRow_eq_none_iff {w : BitVec 24} : selectRow w = none ↔ ∀ r ∈ opcodeMap, r.selects w = false := by
  constructor
  · intro hnone r hr
    by_contra h
    obtain ⟨i, hi⟩ := exists_selectRow_of_selects hr (Bool.eq_true_of_not_eq_false h)
    simp [hnone] at hi
  · intro hall
    by_contra h
    obtain ⟨i, hi⟩ := Option.ne_none_iff_exists'.mp h
    obtain ⟨r, hr, -, hselects⟩ := exists_row_of_selectRow hi
    simp [hall r hr] at hselects

/-- Settles O3: the row a word selects matches it, a row that matches is selected, and two rows that match are the same. -/
theorem opcodeMapSelectsRows : Obligations.OpcodeMapSelectsRows := fun _ =>
  ⟨fun _ hi _ hr => selects_iff_mnemonic_eq hi hr, selectRow_eq_none_iff,
    fun _ hr₁ _ hr₂ h₁ h₂ => opcodeMap_disjoint hr₁ hr₂ h₁ h₂⟩

end Sys2Proof
end

section
/-! The words that do not decode (30_encoding.md R86, R87): which they are, and the refusal of the step that takes one (R88,
60_exceptions.md R243). -/

namespace Sys2Proof

/-! ### Reserved major opcodes and `IX` values (30_encoding.md R87) -/

theorem selectSet_of_reserved {ix : BitVec 4} (h : 10 ≤ ix.toNat) (d : BitVec 16) : selectSet ix d = none := by
  unfold selectSet
  split
  case h_11 => rfl
  all_goals omega

theorem selectKbd_of_reserved {ix : BitVec 4} (h : 3 ≤ ix.toNat) (d : BitVec 16) : selectKbd ix d = none := by
  unfold selectKbd
  split
  case h_4 => rfl
  all_goals omega

theorem ixHighBits_ne_zero : ∀ {ix : BitVec 4}, 2 ≤ ix.toNat → ix.extractLsb' 1 3 ≠ 0#3 := by decide

theorem selectRow_of_reserved {w : BitVec 24}
    (h : (fieldOP w).toNat ∈ [0xD, 0xE, 0xF] ∨
      (fieldOP w).toNat = 4 ∧ 10 ≤ (fieldIX w).toNat ∨
      (fieldOP w).toNat = 6 ∧ 3 ≤ (fieldIX w).toNat ∨
      (fieldOP w).toNat ∈ [5, 7] ∧ 2 ≤ (fieldIX w).toNat ∨
      (fieldOP w).toNat ∈ [0, 8, 9, 0xA, 0xB, 0xC] ∧ fieldIX w ≠ 0#4) : selectRow w = none := by
  simp only [List.mem_cons, List.not_mem_nil, or_false] at h
  rcases h with hop | ⟨hop, hix⟩ | ⟨hop, hix⟩ | ⟨hop, hix⟩ | ⟨hop, hix⟩
  · rcases hop with hop | hop | hop <;> simp [selectRow, hop]
  · simp [selectRow, hop, selectSet_of_reserved hix]
  · simp [selectRow, hop, selectKbd_of_reserved hix]
  · rcases hop with hop | hop <;> simp [selectRow, hop, rowIf, ixHighBits_ne_zero hix]
  · rcases hop with hop | hop | hop | hop | hop | hop <;> simp [selectRow, hop, rowIf, hix]

/-! ### The operand checks (30_encoding.md R86) -/

theorem below12_eq_false_iff {x : BitVec 4} : below12 x = false ↔ 12 ≤ x.toNat := by simp [below12]

theorem legalQMode_eq_false_iff : ∀ {m : BitVec 2}, legalQMode m = false ↔ m = 3 := by decide

theorem legalAuxMode_eq_false_iff {m : BitVec 8} :
    legalAuxMode m = false ↔ m.toNat ∉ [0, 1, 2, 3, 4, 5, 6, 255] := by
  simp only [legalAuxMode, decide_eq_false_iff_not, List.mem_cons, List.not_mem_nil, or_false]
  omega

/-- The operands that fail their check (30_encoding.md R86). -/
def OperandOutOfRange (i : Instr) : Prop :=
  (∃ k, 12 ≤ k.toNat ∧
      (i = .toggle k ∨ i = .recall k ∨ i = .savebank k ∨ i = .setgli k ∨ i = .setrot k ∨ i = .settds k ∨
        ∃ o, i = .kbdnote o k)) ∨
    i = .setqm 3 ∨
    ∃ a m, i = .setauxm a m ∧ m.toNat ∉ [0, 1, 2, 3, 4, 5, 6, 255]

theorem wf_eq_false_iff {i : Instr} : i.wf = false ↔ OperandOutOfRange i := by
  cases i with
  | setqm m => simp [Instr.wf, OperandOutOfRange, legalQMode_eq_false_iff]
  | setauxm a m => simp [Instr.wf, OperandOutOfRange, legalAuxMode_eq_false_iff]
  | _ => simp [Instr.wf, OperandOutOfRange, below12_eq_false_iff]

end Sys2Proof

namespace Sys2Proof.Machine

/-! ### The refusal by the step -/

section
variable {s : State} {w : BitVec 24} {rest : List Input}

theorem nextAction_command (hin : s.input = .cmd w :: rest) (hd : dispatchEnabled s = false) :
    nextAction s = .command w := by
  obtain ⟨hpends, hhdisp⟩ := Bool.or_eq_false_iff.mp hd
  simp [nextAction, hin, ownAction, hpends, hhdisp]

theorem step_of_reject {e : Reject} (hin : s.input = .cmd w :: rest) (hd : dispatchEnabled s = false)
    (he : decode (.cmd w) = .error e) : step s = .refused (refusalOf e) := by
  simp [step, nextAction_command hin hd, perform, runWord, he]

theorem afterRefusal_eq {r : Refusal} {code : BitVec 2} (hr : refusalCode r = some code)
    (hin : s.input = .cmd w :: rest) :
    afterRefusal r s = { s with input := rest, ports := Ports.answered code 0 } := by
  rw [afterRefusal_of_code hr, refuseWith, State.consume, hin]
  rfl

end

/-- Settles O4: a word that selects no row is one that no row of the map matches, which the reserved fields rule out. -/
theorem illegalWordsRefused : Obligations.IllegalWordsRefused := fun _ =>
  ⟨decode_cmd_eq_illegal_iff.trans selectRow_eq_none_iff,
    fun h => decode_cmd_eq_illegal_iff.mpr (selectRow_of_reserved h),
    fun he _ _ hin hd => ⟨step_of_reject hin hd he, afterRefusal_eq rfl hin⟩⟩

/-- Settles O5: a word is rejected for its operand where the selected row's check fails, and the step refuses it. -/
theorem operandChecksRefuse : Obligations.OperandChecksRefuse := fun _ =>
  ⟨decode_cmd_eq_operand_iff.trans (exists_congr fun _ => and_congr_right fun _ => wf_eq_false_iff),
    fun he _ _ hin hd => ⟨step_of_reject hin hd he, afterRefusal_eq rfl hin⟩⟩

end Sys2Proof.Machine
end

section
/-! The laws of `Rot12` and `Rot` (40_scale_model.md R101, R102): what each bit of a rotated pattern is, and what follows from
it for the inverse, the bit count and the emptiness of a scale word. -/

namespace Sys2Proof.Machine

/-! ### The 12-bit rotation -/

/-- Bit `j` of a pattern moved up by `r` semitones is the bit `r` semitones below, wrapping at the octave. -/
theorem getLsbD_rot12 (f : BitVec 12) {r j : Nat} (hr : r ≤ 11) (hj : j ≤ 11) :
    (rot12 f r).getLsbD j = f.getLsbD (((j : Int) - r) % 12).toNat := by
  have hj12 : j < 12 := by omega
  simp only [rot12, BitVec.getLsbD_or, BitVec.getLsbD_shiftLeft, BitVec.getLsbD_ushiftRight]
  by_cases hjr : j < r
  · have hidx : (((j : Int) - r) % 12).toNat = 12 - r + j := by omega
    simp [hjr, hidx]
  · have hidx : (((j : Int) - r) % 12).toNat = j - r := by omega
    have hhigh : f.getLsbD (12 - r + j) = false := BitVec.getLsbD_of_ge f _ (by omega)
    simp [hjr, hj12, hidx, hhigh]

/-- Rotating back by the complement modulo 12 (40_scale_model.md R102). -/
theorem rot12_rot12_complement (f : BitVec 12) {r : Nat} (hr : r ≤ 11) : rot12 (rot12 f r) ((12 - r) % 12) = f := by
  apply BitVec.eq_of_getLsbD_eq
  intro j hj
  rw [getLsbD_rot12 _ (by omega) (by omega), getLsbD_rot12 _ hr (by omega)]
  congr 1
  omega

/-- The wrapped shift down by `r` only reorders the twelve semitones. -/
theorem map_shiftDown_range_perm : ∀ {r : Nat}, r ≤ 11 →
    ((List.range 12).map fun k : Nat => (((k : Int) - r) % 12).toNat).Perm (List.range 12) := by decide

/-- `Rot12` preserves the number of set bits (40_scale_model.md R102). -/
theorem count_rot12 (f : BitVec 12) {r : Nat} (hr : r ≤ 11) :
    ((List.range 12).filter fun k => (rot12 f r).getLsbD k).length =
      ((List.range 12).filter fun k => f.getLsbD k).length := by
  have hbits : (List.range 12).filter (fun k => (rot12 f r).getLsbD k) =
      (List.range 12).filter (fun k : Nat => f.getLsbD (((k : Int) - r) % 12).toNat) :=
    List.filter_congr fun k hk => getLsbD_rot12 f hr (Nat.le_of_lt_succ (List.mem_range.mp hk))
  rw [hbits, ← ((map_shiftDown_range_perm hr).filter fun k => f.getLsbD k).length_eq, List.filter_map, List.length_map]
  rfl

/-! ### Semitones of a scale word -/

/-- A semitone is a bit of the scale word's upper twelve. -/
theorem en_eq_extract (w : BitVec 16) (k : Int) : en w k = (w.extractLsb' 4 12).getLsbD (k % 12).toNat := by
  have hk : (k % 12).toNat < 12 := by omega
  simp [en, hk]

theorem extractLsb'_rot_high (scale : BitVec 16) (brot arot : BitVec 4) :
    (rot scale brot arot).extractLsb' 4 12 =
      rot12 (scale.extractLsb' 4 12) ((brot.toNat + arot.toNat) % 12) :=
  BitVec.extractLsb'_append_eq_left

/-- A rotated scale enables what the scale enables, moved up by the sum of both rotations (40_scale_model.md R101). -/
theorem en_rot (w : BitVec 16) (b a : BitVec 4) (k : Int) :
    en (rot w b a) k = en w (k - (b.toNat + a.toNat)) := by
  rw [en_eq_extract, extractLsb'_rot_high, getLsbD_rot12 _ (by omega) (by omega), en_eq_extract]
  congr 1
  omega

/-- A scale rotated by the auxiliary rotation alone, as after `RECALL` (40_scale_model.md R104). -/
theorem en_rot_zero (w : BitVec 16) (a : BitVec 4) (k : Int) : en (rot w 0 a) k = en w (k - a.toNat) := by
  rw [en_rot]
  simp

/-- `RSCALE` is empty if and only if `SCALE` is (40_scale_model.md R102). -/
theorem emptyScale_rot (w : BitVec 16) (b a : BitVec 4) : emptyScale (rot w b a) = emptyScale w := by
  rw [Bool.eq_iff_iff, emptyScale_iff, emptyScale_iff]
  constructor
  · intro h k
    have hk := h (k + (b.toNat + a.toNat))
    rwa [en_rot, Int.add_sub_cancel] at hk
  · intro h k
    rw [en_rot]
    exact h _

/-- Settles O30: each law from what a bit of the rotated pattern is. -/
theorem rotationLaws : Obligations.RotationLaws :=
  ⟨fun f _ hr => ⟨fun _ hj => getLsbD_rot12 f hr hj, rot12_rot12_complement f hr, count_rot12 f hr⟩,
    fun w b a => ⟨en_rot w b a, extractLsb'_rot_low w b a, emptyScale_rot w b a⟩⟩

end Sys2Proof.Machine
end

section
/-! The operations of the Scale Model (40_scale_model.md R105 to R109): the next state of each legal operand, and the
semitones of a masked and of a toggled scale word (R100, 10_state.md R25). -/

namespace Sys2Proof.Machine

/-! ### The next state -/

section
variable (s : State)

theorem exec_toggle {k : BitVec 4} (hk : k.toNat < 12) :
    exec (.toggle k) s = .next (answer 0 (markEdit (setScale (s.cfg.scale ^^^ (1#16 <<< (4 + k.toNat))) s))) := by
  simp only [exec, execToggle, index12_of_lt hk]

theorem exec_setscale (v : BitVec 16) : exec (.setscale v) s = .next (answer 0 (markEdit (setScale v s))) := rfl

theorem exec_setrot {r : BitVec 4} (hr : r.toNat < 12) :
    exec (.setrot r) s = .next (answer 0 (markEdit (recomputeScale { s with cfg := { s.cfg with brot := r } }))) := by
  simp only [exec, execSetrot, index12_of_lt hr]

theorem exec_recall (b : Fin 12) :
    exec (.recall (BitVec.ofNat 4 b.val)) s = .next (answer 0 (markEdit (recallBank b s))) := by
  simp only [exec, execRecall, index12_ofNat]

theorem exec_savebank (b : Fin 12) :
    exec (.savebank (BitVec.ofNat 4 b.val)) s = .next (saveBank b s.cfg.scale (answer 0 s)) := by
  simp only [exec, execSavebank, index12_ofNat]

end

/-! ### A masked and a toggled scale word -/

theorem extractLsb'_mask_high (v : BitVec 16) : (v &&& 0xFFF0).extractLsb' 4 12 = v.extractLsb' 4 12 := by
  rw [BitVec.extractLsb'_and]
  exact BitVec.and_allOnes

/-- The mask of 10_state.md R25 takes no semitone away. -/
theorem en_mask (v : BitVec 16) (k : Int) : en (v &&& 0xFFF0) k = en v k := by
  rw [en_eq_extract, extractLsb'_mask_high, ← en_eq_extract]

/-- Flipping bit `4 + i` flips semitone `i` and no other (40_scale_model.md R105). -/
theorem en_xor_semitone (w : BitVec 16) {i : Nat} (hi : i < 12) (k : Int) :
    en (w ^^^ (1#16 <<< (4 + i))) k = (en w k != decide (k % 12 = i)) := by
  have hk : 4 + (k % 12).toNat < 16 := by omega
  have hbit : (1#16 <<< (4 + i)).getLsbD (4 + (k % 12).toNat) = decide (k % 12 = i) := by
    rw [← BitVec.twoPow_eq, BitVec.getLsbD_twoPow, decide_eq_true (by omega : 4 + i < 16), Bool.true_and]
    exact decide_eq_decide.mpr (by omega)
  rw [en, BitVec.getLsbD_xor, hbit]
  rfl

/-! ### The obligations -/

/-- Settles O12: each edit's next state, whose semitones the laws of the mask, the toggled bit and the rotation give. -/
theorem scaleEditsRotate : Obligations.ScaleEditsRotate := fun s =>
  ⟨fun _ hk => ⟨_, exec_toggle s (Nat.lt_succ_of_le hk), rfl, extractLsb'_mask_low _,
      fun j => (en_mask _ j).trans (en_xor_semitone s.cfg.scale (Nat.lt_succ_of_le hk) j),
      extractLsb'_rot_low _ _ _, en_rot _ _ _⟩,
    fun v => ⟨_, exec_setscale s v, rfl, extractLsb'_mask_low v, extractLsb'_mask_high v, extractLsb'_rot_low _ _ _,
      fun j => (en_rot _ _ _ j).trans (en_mask v _)⟩,
    fun _ hr => ⟨_, exec_setrot s (Nat.lt_succ_of_le hr), rfl, extractLsb'_rot_low _ _ _, en_rot _ _ _⟩⟩

/-- Settles O13: `RECALL` loads the masked bank, and the semitones of `RSCALE` are the bank's moved up by `AROT`. -/
theorem recallLoadsBank : Obligations.RecallLoadsBank := fun s b =>
  ⟨_, exec_recall s b, rfl, extractLsb'_mask_low _, extractLsb'_mask_high _, extractLsb'_rot_low _ _ _,
    fun j => (en_rot_zero _ _ j).trans (en_mask _ _)⟩

/-- Settles O14: `SAVEBANK` is one bank write, and the laws of the bank memory say what it leaves. -/
theorem savebankStoresScale : Obligations.SavebankStoresScale := fun s b hwf =>
  ⟨_, exec_savebank s b, rfl, Memory.bankRead_bankWrite_self b _ hwf,
    fun _ hc => Memory.bankRead_bankWrite_of_ne s.bank _ hc,
    fun _ h0 h1 => Memory.readByte_bankWrite_of_ne s.bank b _ h0 h1, Memory.wf_bankWrite b _ hwf⟩

end Sys2Proof.Machine
end

section
/-! The rounding step and the two quantizers that only range-check its semitone, `QSemi` and `QSkip`
(41_quantization_engine.md R121, R122, R124). -/

namespace Sys2Proof.Machine

/-! ### The rounding step -/

/-- `RoundStep` is the division with remainder of the biased sample by 8 (41_quantization_engine.md R121). -/
theorem roundStep_eq_some {s n rem : Int} :
    roundStep s = some (n, rem) ↔ 0 ≤ n ∧ 0 ≤ rem ∧ rem ≤ 7 ∧ s + 4 = 8 * n + rem := by
  simp only [roundStep]
  split
  · simp only [reduceCtorEq, false_iff]
    omega
  · simp only [Option.some.injEq, Prod.mk.injEq]
    omega

theorem roundStep_eq_none {s : Int} : roundStep s = none ↔ s < -4 := by
  simp only [roundStep]
  split
  · simp only [true_iff]
    omega
  · simp only [reduceCtorEq, false_iff]
    omega

/-- A sample of at least -4 rounds to the semitone `(s + 4) / 8`. -/
theorem roundStep_of_ge {s : Int} (h : -4 ≤ s) : roundStep s = some ((s + 4) / 8, (s + 4) % 8) :=
  roundStep_eq_some.mpr (by omega)

/-! ### `QSemi` -/

theorem qSemi_of_roundStep {s n rem : Int} (h : roundStep s = some (n, rem)) : qSemi s = range n := by
  simp only [qSemi, h]

theorem qSemi_of_below {s : Int} (h : s < -4) : qSemi s = none := by
  simp only [qSemi, roundStep_eq_none.mpr h]

/-- Settles O33: below -4 there is no semitone; from there on the note is the range-checked quotient of the biased
sample. -/
theorem semitoneRounding : Obligations.SemitoneRounding := fun s => by
  by_cases hs : s < -4
  · rw [qSemi_of_below hs]
    refine ⟨fun n => ?_, by simp only [true_iff]; omega⟩
    simp only [reduceCtorEq, false_iff]
    omega
  · rw [qSemi_of_roundStep (roundStep_of_ge (by omega)), range_eq_none]
    refine ⟨fun n => ?_, by omega⟩
    rw [range_eq_some]
    omega

/-! ### Enabled semitones and the empty scale -/

theorem emptyScale_eq_true {w : BitVec 16} : emptyScale w = true ↔ w.extractLsb' 4 12 = 0#12 := decide_eq_true_iff

theorem emptyScale_eq_false {w : BitVec 16} : emptyScale w = false ↔ w.extractLsb' 4 12 ≠ 0#12 := decide_eq_false_iff_not

/-- Semitones an octave apart are enabled together (40_scale_model.md R100). -/
theorem en_congr (w : BitVec 16) {j k : Int} (h : j % 12 = k % 12) : en w j = en w k := by
  simp only [en, h]

theorem emptyScale_of_en {w : BitVec 16} {k : Int} (h : en w k = true) : emptyScale w = false := by
  rw [← Bool.not_eq_true, emptyScale_iff]
  intro hnone
  rw [hnone k] at h
  cases h

theorem exists_en_of_nonempty {w : BitVec 16} (h : emptyScale w = false) : ∃ k : Int, en w k = true := by
  have hsome : ¬ ∀ k : Int, en w k = false := (emptyScale_iff w).not.mp (by simp [h])
  simpa only [not_forall, Bool.not_eq_false] using hsome

/-! ### `QSkip` -/

theorem qSkip_of_empty {w : BitVec 16} (h : emptyScale w = true) (s : Int) : qSkip w s = none := if_pos h

theorem qSkip_of_below (w : BitVec 16) {s : Int} (h : s < -4) : qSkip w s = none := by
  simp only [qSkip, roundStep_eq_none.mpr h, ite_self]

/-- `QSkip` is `QSemi` on an enabled nearest semitone and `NoNote` on a disabled one (41_quantization_engine.md R124). -/
theorem qSkip_of_roundStep {w : BitVec 16} {s n rem : Int} (h : roundStep s = some (n, rem)) :
    qSkip w s = if en w n then range n else none := by
  cases he : emptyScale w with
  | true => simp [qSkip_of_empty he, (emptyScale_iff w).mp he]
  | false => simp only [qSkip, he, h, Bool.false_eq_true, if_false]

end Sys2Proof.Machine
end

section
/-! The search of `QNearest` (41_quantization_engine.md R123): the smallest distance that has an enabled semitone, and the
neighbour chosen there. -/

namespace Sys2Proof.Machine

/-- A semitone at distance `d` below or above `n` is enabled. -/
def EnabledAt (w : BitVec 16) (n : Int) (d : Nat) : Prop := en w (n - d) = true ∨ en w (n + d) = true

/-- Of the two semitones at distance `d` from `n`, the one the search takes: the higher one if it alone is enabled, or if
both are and `up` decides so. -/
def nearestNeighbour (w : BitVec 16) (n : Int) (up : Bool) (d : Nat) : Int :=
  if en w (n + d) = true ∧ (en w (n - d) = false ∨ up = true) then n + d else n - d

theorem not_enabledAt {w : BitVec 16} {n : Int} {d : Nat} :
    ¬ EnabledAt w n d ↔ en w (n - d) = false ∧ en w (n + d) = false := by
  simp only [EnabledAt, not_or, Bool.not_eq_true]

theorem nearestNeighbour_cases (w : BitVec 16) (n : Int) (up : Bool) (d : Nat) :
    nearestNeighbour w n up d = n + d ∨ nearestNeighbour w n up d = n - d :=
  ite_eq_or_eq _ _ _

theorem en_nearestNeighbour {w : BitVec 16} {n : Int} {up : Bool} {d : Nat} (h : EnabledAt w n d) :
    en w (nearestNeighbour w n up d) = true := by
  unfold nearestNeighbour
  split
  · next hup => exact hup.1
  · next hup =>
    rcases h with hlow | hhigh
    · exact hlow
    · cases hlow : en w (n - d) with
      | true => rfl
      | false => exact absurd ⟨hhigh, .inl hlow⟩ hup

/-! ### One distance of the search -/

theorem searchNearest_cons_of_enabled {w : BitVec 16} {n : Int} {d : Nat} (h : EnabledAt w n d) (up : Bool) (ds : List Nat) :
    searchNearest w n up (d :: ds) = range (nearestNeighbour w n up d) := by
  rw [searchNearest, nearestNeighbour]
  cases hlow : en w (n - d) <;> cases hhigh : en w (n + d)
  · simp [EnabledAt, hlow, hhigh] at h
  all_goals simp

theorem searchNearest_cons_of_disabled {w : BitVec 16} {n : Int} {d : Nat} (h : ¬ EnabledAt w n d) (up : Bool)
    (ds : List Nat) : searchNearest w n up (d :: ds) = searchNearest w n up ds := by
  obtain ⟨hlow, hhigh⟩ := not_enabledAt.mp h
  rw [searchNearest, hlow, hhigh]

/-- The search over the consecutive distances from `a` on ends at the first one that has an enabled semitone. -/
theorem searchNearest_range' {w : BitVec 16} {n : Int} (up : Bool) {d : Nat} (hd : EnabledAt w n d) (len a : Nat)
    (hmin : ∀ e, a ≤ e → e < d → ¬ EnabledAt w n e) (ha : a ≤ d) (hlen : d < a + len) :
    searchNearest w n up (List.range' a len) = range (nearestNeighbour w n up d) := by
  induction len generalizing a with
  | zero => omega
  | succ len ih =>
    rw [List.range'_succ]
    rcases Nat.eq_or_lt_of_le ha with rfl | hlt
    · exact searchNearest_cons_of_enabled hd up _
    · rw [searchNearest_cons_of_disabled (hmin a le_rfl hlt)]
      exact ih (a + 1) (fun e he => hmin e (by omega)) hlt (by omega)

/-! ### The distance of the nearest enabled semitone -/

/-- The twelve semitones repeat every octave, so one of them is enabled within half an octave of any semitone. -/
theorem exists_enabledAt_le_six {w : BitVec 16} (h : emptyScale w = false) (n : Int) : ∃ d, d ≤ 6 ∧ EnabledAt w n d := by
  obtain ⟨k, hk⟩ := exists_en_of_nonempty h
  by_cases hr : (k - n) % 12 ≤ 6
  · exact ⟨((k - n) % 12).toNat, by omega, .inr ((en_congr w (by omega)).trans hk)⟩
  · exact ⟨(12 - (k - n) % 12).toNat, by omega, .inl ((en_congr w (by omega)).trans hk)⟩

theorem exists_least_enabledAt {w : BitVec 16} (h : emptyScale w = false) (n : Int) :
    ∃ d, d ≤ 6 ∧ EnabledAt w n d ∧ ∀ e, e < d → ¬ EnabledAt w n e := by
  classical
  obtain ⟨d, hd, hen⟩ := exists_enabledAt_le_six h n
  have hex : ∃ d, EnabledAt w n d := ⟨d, hen⟩
  exact ⟨Nat.find hex, (Nat.find_min' hex hen).trans hd, Nat.find_spec hex, fun _ => Nat.find_min hex⟩

/-! ### `QNearest` -/

section
variable (biased : Bool) {w : BitVec 16} {s n rem : Int}

theorem qNearest_of_empty (h : emptyScale w = true) (s : Int) : qNearest biased w s = none := if_pos h

theorem qNearest_of_below (w : BitVec 16) (h : s < -4) : qNearest biased w s = none := by
  simp only [qNearest, roundStep_eq_none.mpr h, ite_self]

theorem qNearest_of_enabled (h : roundStep s = some (n, rem)) (hen : en w n = true) : qNearest biased w s = range n := by
  simp only [qNearest, emptyScale_of_en hen, h, hen, Bool.false_eq_true, if_false, if_true]

/-- On a disabled nearest semitone, `QNearest` gives the neighbour at the smallest distance that has an enabled one. -/
theorem qNearest_of_disabled (hne : emptyScale w = false) (h : roundStep s = some (n, rem)) (hdis : en w n = false) :
    ∃ d : Nat, 1 ≤ d ∧ d ≤ 6 ∧ (∀ e : Nat, e < d → ¬ EnabledAt w n e) ∧ EnabledAt w n d ∧
      qNearest biased w s = range (nearestNeighbour w n (tieUp biased s rem) d) := by
  obtain ⟨d, hd6, hen, hmin⟩ := exists_least_enabledAt hne n
  have hd1 : 1 ≤ d := by
    by_contra hd0
    obtain rfl : d = 0 := by omega
    simp [EnabledAt, hdis] at hen
  refine ⟨d, hd1, hd6, hmin, hen, ?_⟩
  simp only [qNearest, hne, h, hdis, Bool.false_eq_true, if_false]
  exact searchNearest_range' _ hen 6 1 (fun e _ => hmin e) hd1 (by omega)

/-- A note of `QNearest` is enabled and within half an octave of the nearest semitone (41_quantization_engine.md R129). -/
theorem qNearest_eq_some {m : Note} (h : qNearest biased w s = some m) :
    ∃ n rem, roundStep s = some (n, rem) ∧ en w m.toNat = true ∧ (m.toNat : Int) - n ≤ 6 ∧ n - (m.toNat : Int) ≤ 6 := by
  cases hne : emptyScale w with
  | true => rw [qNearest_of_empty biased hne] at h; cases h
  | false =>
    have hs : -4 ≤ s := by
      by_contra hlt
      rw [qNearest_of_below biased w (by omega)] at h
      cases h
    have hr := roundStep_of_ge hs
    refine ⟨_, _, hr, ?_⟩
    cases hen : en w ((s + 4) / 8) with
    | true =>
      rw [qNearest_of_enabled biased hr hen, range_eq_some] at h
      rw [← h]
      exact ⟨hen, by omega, by omega⟩
    | false =>
      obtain ⟨d, -, hd6, -, hat, hq⟩ := qNearest_of_disabled biased hne hr hen
      rw [hq, range_eq_some] at h
      rw [← h]
      refine ⟨en_nearestNeighbour hat, ?_⟩
      rcases nearestNeighbour_cases w ((s + 4) / 8) (tieUp biased s ((s + 4) % 8)) d with hn | hn <;> rw [hn] <;> omega

end

/-- Settles O32: on a disabled semitone the search stops at the least distance with an enabled one, and the tie switch at
the spec's value compares the remainder. -/
theorem nearestSearchRule : Obligations.NearestSearchRule := fun w s => by
  refine ⟨fun h0 => qNearest_of_empty true (emptyScale_eq_true.mpr h0) s, qNearest_of_below true w, ?_⟩
  intro n rem h0 hn hs hrem0 hrem7
  have hr := roundStep_eq_some.mpr ⟨hn, hrem0, hrem7, hs⟩
  refine ⟨qNearest_of_enabled true hr, fun hdis => ?_⟩
  obtain ⟨d, hd1, hd6, hmin, hat, hq⟩ := qNearest_of_disabled true (emptyScale_eq_false.mpr h0) hr hdis
  refine ⟨d, hd1, hd6, fun e he => not_enabledAt.mp (hmin e he), hat, ?_⟩
  simpa only [nearestNeighbour, tieUp, if_true, decide_eq_true_eq] using hq

end Sys2Proof.Machine
end

section
/-! `QEqual` (41_quantization_engine.md R125): the enabled semitone of a given rank. -/

namespace Sys2Proof.Machine

/-- The entry of rank `r` among the numbers below `N` with a property is the one with exactly `r` of them below it. -/
theorem exists_getElem?_filter_range (p : Nat → Bool) {r N : Nat} (h : r < ((List.range N).filter p).length) :
    ∃ k, k < N ∧ p k = true ∧ ((List.range k).filter p).length = r ∧ ((List.range N).filter p)[r]? = some k := by
  induction N with
  | zero => simp at h
  | succ N ih =>
    rw [List.range_succ, List.filter_append] at h ⊢
    rcases lt_or_ge r ((List.range N).filter p).length with hlt | hge
    · obtain ⟨k, hkN, hpk, hrank, hget⟩ := ih hlt
      exact ⟨k, by omega, hpk, hrank, by rw [List.getElem?_append_left hlt, hget]⟩
    · cases hp : p N with
      | false => exact absurd (by simpa [hp] using h) (not_lt.mpr hge)
      | true =>
        obtain rfl : r = ((List.range N).filter p).length := le_antisymm (by simpa [hp, Nat.lt_succ_iff] using h) hge
        exact ⟨N, by omega, hp, rfl, by simp [hp]⟩

theorem enabledSemitones_length_pos {w : BitVec 16} (h : emptyScale w = false) : 0 < (enabledSemitones w).length := by
  obtain ⟨k, hk⟩ := exists_en_of_nonempty h
  refine List.length_pos_of_mem (a := (k % 12).toNat) (List.mem_filter.mpr ⟨List.mem_range.mpr (by omega), ?_⟩)
  exact (en_congr w (by omega)).trans hk

theorem qEqual_of_empty {w : BitVec 16} (h : emptyScale w = true) (s : Int) : qEqual w s = none := if_pos h

theorem qEqual_of_neg (w : BitVec 16) {s : Int} (h : s < 0) : qEqual w s = none := by
  simp only [qEqual, h, if_true, ite_self]

/-- A position of the octave scaled to `count` ranks is a rank. -/
theorem scaled_rank_bounds {pos : Int} {count : Nat} (h0 : 0 ≤ pos) (h96 : pos < 96) (hcount : 0 < count) :
    0 ≤ pos * count / 96 ∧ pos * count / 96 < count := by
  have hnonneg : 0 ≤ pos * (count : Int) := mul_nonneg h0 (by omega)
  have hlt : pos * (count : Int) < 96 * count := mul_lt_mul_of_pos_right h96 (by omega)
  omega

/-- `QEqual` gives the semitone of rank `floor(position * enabledCount / 96)` in the sample's octave. -/
theorem qEqual_of_nonempty {w : BitVec 16} {s : Int} (hne : emptyScale w = false) (hs : 0 ≤ s) :
    ∃ k : Nat, k ≤ 11 ∧ en w k = true ∧
      (((List.range k).filter fun j : Nat => en w j).length : Int) = (s % 96) * ((enabledSemitones w).length : Int) / 96 ∧
      qEqual w s = range (12 * (s / 96) + k) := by
  obtain ⟨h0, hlt⟩ := scaled_rank_bounds (pos := s % 96) (by omega) (by omega) (enabledSemitones_length_pos hne)
  obtain ⟨k, hk, hen, hrank, hget⟩ := exists_getElem?_filter_range (fun j => en w j) (N := 12)
    (r := (s % 96 * ((enabledSemitones w).length : Int) / 96).toNat) ((Int.toNat_lt h0).mpr hlt)
  refine ⟨k, by omega, hen, by rw [hrank, Int.toNat_of_nonneg h0], ?_⟩
  have hget' : (enabledSemitones w)[(s % 96 * ((enabledSemitones w).length : Int) / 96).toNat]? = some k := hget
  simp only [qEqual, hne, Bool.false_eq_true, if_false, if_neg (not_lt.mpr hs), hget']

/-- A note of `QEqual` is enabled and lies in the sample's octave (41_quantization_engine.md R129). -/
theorem qEqual_eq_some {w : BitVec 16} {s : Int} {m : Note} (h : qEqual w s = some m) :
    en w m.toNat = true ∧ (m.toNat : Int) / 12 = s / 96 := by
  cases hne : emptyScale w with
  | true => rw [qEqual_of_empty hne] at h; cases h
  | false =>
    rcases lt_or_ge s 0 with hs | hs
    · rw [qEqual_of_neg w hs] at h; cases h
    · obtain ⟨k, hk, hen, -, hq⟩ := qEqual_of_nonempty hne hs
      rw [hq, range_eq_some] at h
      exact ⟨(en_congr w (by omega)).trans hen, by omega⟩

/-- Counting among the numbers below `N` as integers, as the obligation's ranks are written, is counting among them as
naturals, as the model does. -/
theorem length_filter_intCast_range (p : Int → Bool) (N : Nat) :
    ((List.range N >>= fun j => pure (j : Int)).filter p).length = ((List.range N).filter fun j : Nat => p j).length := by
  rw [bind_pure_comp, List.map_eq_map, List.filter_map, List.length_map]
  rfl

/-- Settles O35: the note of a non-empty scale is the one of the scaled rank. -/
theorem equalSpacingRank : Obligations.EqualSpacingRank := fun w s => by
  refine ⟨fun h0 => qEqual_of_empty (emptyScale_eq_true.mpr h0) s, qEqual_of_neg w, fun h0 hs => ?_⟩
  simp only [length_filter_intCast_range]
  exact qEqual_of_nonempty (emptyScale_eq_false.mpr h0) hs

end Sys2Proof.Machine
end

section
/-! The laws that hold the quantizers together (41_quantization_engine.md R129), and all of them on the chromatic scale. -/

namespace Sys2Proof.Machine

/-! ### The chromatic scale -/

theorem en_chromatic (k : Int) : en 0xFFF0 k = true := by
  have hall : (0xFFF0 : BitVec 16).extractLsb' 4 12 = BitVec.allOnes 12 := by decide
  rw [en_eq_extract, hall, BitVec.getLsbD_allOnes]
  exact decide_eq_true (by omega)

/-- With every semitone enabled, the rank of a semitone is its number, so `QEqual` truncates. -/
theorem qEqual_chromatic {s : Int} (hs : 0 ≤ s) : qEqual 0xFFF0 s = range (s / 8) := by
  obtain ⟨k, -, -, hrank, hq⟩ := qEqual_of_nonempty (emptyScale_of_en (en_chromatic 0)) hs
  simp only [enabledSemitones, en_chromatic, List.filter_true, List.length_range] at hrank
  have hk : (k : Int) = s % 96 * 12 / 96 := hrank
  rw [hq, hk]
  congr 1
  omega

/-- Settles O34: every nearest semitone is enabled, so neither rounding quantizer searches or skips. -/
theorem chromaticScaleRounds : Obligations.ChromaticScaleRounds := fun biased s => by
  have hequal : qEqual 0xFFF0 s = if s < 0 then none else range (s / 8) := by
    split
    · next hneg => exact qEqual_of_neg _ hneg
    · next hpos => exact qEqual_chromatic (not_lt.mp hpos)
  rcases lt_or_ge s (-4) with hs | hs
  · rw [qNearest_of_below biased _ hs, qSkip_of_below _ hs, qSemi_of_below hs]
    exact ⟨rfl, rfl, hequal⟩
  · have hr := roundStep_of_ge hs
    rw [qNearest_of_enabled biased hr (en_chromatic _), qSkip_of_roundStep hr, if_pos (en_chromatic _), qSemi_of_roundStep hr]
    exact ⟨rfl, rfl, hequal⟩

/-! ### The derived laws -/

/-- A note of `QSkip` is enabled and within half a semitone of the sample (41_quantization_engine.md R129). -/
theorem qSkip_eq_some {w : BitVec 16} {s : Int} {m : Note} (h : qSkip w s = some m) :
    en w m.toNat = true ∧ 8 * (m.toNat : Int) - s ≤ 4 ∧ s - 8 * (m.toNat : Int) ≤ 4 := by
  rcases lt_or_ge s (-4) with hs | hs
  · rw [qSkip_of_below w hs] at h; cases h
  · rw [qSkip_of_roundStep (roundStep_of_ge hs)] at h
    split at h
    · next hen =>
      rw [range_eq_some] at h
      rw [← h]
      exact ⟨hen, by omega, by omega⟩
    · cases h

/-- Settles O31: the rounding step's two equations, the laws of each quantizer's notes, and the empty scale. -/
theorem quantizerLaws : Obligations.QuantizerLaws := fun biased w s => by
  refine ⟨fun hs => ⟨roundStep_eq_none.mpr hs, qSkip_of_below w hs⟩,
    fun n rem hn hrem0 hrem7 hs => roundStep_eq_some.mpr ⟨hn, hrem0, hrem7, hs⟩,
    ?skipDisabled, ?enabled, ?nearestNote, fun m => qSkip_eq_some, fun m => qEqual_eq_some, ?empty⟩
  case skipDisabled =>
    intro n rem hr hdis
    rw [qSkip_of_roundStep hr, hdis]
    rfl
  case enabled =>
    intro n rem hr hen
    have hskip : qSkip w s = range n := by rw [qSkip_of_roundStep hr, if_pos hen]
    exact ⟨(qNearest_of_enabled biased hr hen).trans hskip.symm, hskip⟩
  case nearestNote =>
    intro m hm
    obtain ⟨n, rem, hr, hen, hle⟩ := qNearest_eq_some biased hm
    refine ⟨hen, fun n' rem' hr' => ?_⟩
    obtain ⟨rfl, -⟩ := Prod.mk.inj (Option.some.inj (hr.symm.trans hr'))
    exact hle
  case empty =>
    intro h0
    have hempty := emptyScale_eq_true.mpr h0
    exact ⟨qNearest_of_empty biased hempty s, qSkip_of_empty hempty s, qEqual_of_empty hempty s⟩

end Sys2Proof.Machine
end

section
/-! The equations of `GateStep` (42_channel_processor.md R145), one for each phase, and the gate over a run of gate steps. -/

namespace Sys2Proof.Machine

/-! ### One gate step -/

/-- A settling delay elapses where the phase is -1. -/
theorem succ_eq_zero_iff {x : BitVec 16} (h : x.toInt < 0) : x + 1 = 0 ↔ x.toInt = -1 := by
  have hzero : (0 : BitVec 16).toInt = 0 := by decide
  rw [← BitVec.toInt_inj, toInt_succ (by omega), hzero]
  omega

/-- The output as the last gated note (42_channel_processor.md R144 compares the two as numbers). -/
theorem zeroExtend_eq_iff {x : BitVec 7} {y : BitVec 8} : x.zeroExtend 8 = y ↔ x.toNat = y.toNat := by
  rw [← BitVec.toNat_inj, BitVec.toNat_setWidth, Nat.mod_eq_of_lt (by omega)]

/-- The phases in which a gate step counts up and does nothing else: a settling delay before its last invocation, a running
gate before its length. -/
def PhaseCounts (g : BitVec 16) (phase : Int) : Prop := phase < -1 ∨ 0 < phase ∧ phase < g.toNat

section
variable {g : BitVec 16} {r : Channel}

theorem gateStep_of_counts (h : PhaseCounts g r.gph.toInt) : gateStep g r = { r with gph := r.gph + 1 } := by
  unfold gateStep
  rcases h with hneg | ⟨hpos, hlt⟩
  · rw [if_pos (by omega)]
    exact if_neg (mt (succ_eq_zero_iff (by omega)).mp (by omega))
  · rw [if_neg (by omega), if_pos hpos, if_neg (by omega)]

theorem gateStep_of_elapsed_new (h : r.gph.toInt = -1) (hout : r.out.toNat ≠ r.lgn.toNat) :
    gateStep g r = { r with gate := true, lgn := r.out.zeroExtend 8, gph := 1 } := by
  have h0 : r.gph + 1 = 0 := (succ_eq_zero_iff (by omega)).mpr h
  have hne : r.out.zeroExtend 8 ≠ r.lgn := mt zeroExtend_eq_iff.mp hout
  unfold gateStep
  rw [if_pos (by omega)]
  simp only [h0, hne, ne_eq, not_false_eq_true, decide_true, Bool.or_true, if_true]

theorem gateStep_of_elapsed_same (h : r.gph.toInt = -1) (hout : r.out.toNat = r.lgn.toNat) :
    gateStep g r = { r with gph := if r.gate then 1 else 0 } := by
  have h0 : r.gph + 1 = 0 := (succ_eq_zero_iff (by omega)).mpr h
  have heq : r.out.zeroExtend 8 = r.lgn := zeroExtend_eq_iff.mpr hout
  unfold gateStep
  rw [if_pos (by omega)]
  simp only [h0, heq, ne_eq, not_true_eq_false, decide_false, Bool.or_false, if_true, Bool.false_eq_true, if_false]

theorem gateStep_of_idle (h : r.gph.toInt = 0) : gateStep g r = r := by
  rw [gateStep, if_neg (by omega), if_neg (by omega)]

theorem gateStep_of_ended (h : 0 < r.gph.toInt) (hg : (g.toNat : Int) ≤ r.gph.toInt) :
    gateStep g r = { r with gate := false, gph := 0 } := by
  rw [gateStep, if_neg (by omega), if_pos h, if_pos hg]

/-- A phase that counts up does not wrap. -/
theorem toInt_succ_of_counts (hg : g.toNat ≤ 32767) {x : BitVec 16} (h : PhaseCounts g x.toInt) :
    (x + 1).toInt = x.toInt + 1 := by
  unfold PhaseCounts at h
  exact toInt_succ (by omega)

/-! ### A run of gate steps -/

theorem gateSteps_add (m n : Nat) (r : Channel) : gateSteps g (m + n) r = gateSteps g n (gateSteps g m r) := by
  induction m generalizing r with
  | zero => rw [Nat.zero_add, gateSteps]
  | succ m ih => rw [Nat.succ_add, gateSteps, gateSteps, ih]

/-- A run of counting phases moves the phase register alone. -/
theorem gateSteps_of_counts (hg : g.toNat ≤ 32767) {n : Nat}
    (h : ∀ i : Nat, i < n → PhaseCounts g (r.gph.toInt + i)) :
    ∃ x : BitVec 16, gateSteps g n r = { r with gph := x } ∧ x.toInt = r.gph.toInt + n := by
  induction n with
  | zero => exact ⟨r.gph, rfl, by simp⟩
  | succ n ih =>
    obtain ⟨x, hsteps, hx⟩ := ih fun i hi => h i (by omega)
    have hcounts : PhaseCounts g x.toInt := hx ▸ h n (by omega)
    refine ⟨x + 1, ?_, ?_⟩
    · rw [gateSteps_add, hsteps]
      exact gateStep_of_counts hcounts
    · rw [toInt_succ_of_counts hg hcounts, hx]
      push_cast
      ring

theorem gateSteps_of_idle (h : r.gph.toInt = 0) (n : Nat) : gateSteps g n r = r := by
  induction n with
  | zero => rfl
  | succ n ih => rw [gateSteps, gateStep_of_idle h, ih]

/-- From the last invocation of a settling delay with a new note, the gate is on with the phase the number of steps. -/
theorem gateSteps_elapsed_new (hg : g.toNat ≤ 32767) (h : r.gph.toInt = -1) (hout : r.out.toNat ≠ r.lgn.toNat) {n : Nat}
    (hn : n < g.toNat) : ∃ x : BitVec 16, x.toInt = n + 1 ∧
      gateSteps g (n + 1) r = { r with gate := true, lgn := r.out.zeroExtend 8, gph := x } := by
  rw [gateSteps, gateStep_of_elapsed_new h hout]
  have hone : (1 : BitVec 16).toInt = 1 := by decide
  obtain ⟨x, hsteps, hx⟩ := gateSteps_of_counts (g := g) (n := n)
    (r := { r with gate := true, lgn := r.out.zeroExtend 8, gph := 1 }) hg
    fun i hi => .inr (by rw [hone]; omega)
  exact ⟨x, by rw [hx, hone, add_comm], hsteps⟩

/-- From there, `GATELEN` steps end the gate, and it stays ended. -/
theorem gateSteps_ended (hpos : 1 ≤ g.toNat) (hg : g.toNat ≤ 32767) (h : r.gph.toInt = -1)
    (hout : r.out.toNat ≠ r.lgn.toNat) {n : Nat} (hn : g.toNat + 1 ≤ n) :
    gateSteps g n r = { r with gate := false, lgn := r.out.zeroExtend 8, gph := 0 } := by
  obtain ⟨x, hx, hsteps⟩ := gateSteps_elapsed_new (n := g.toNat - 1) hg h hout (by omega)
  obtain ⟨k, rfl⟩ : ∃ k, n = g.toNat - 1 + 1 + (k + 1) := ⟨n - g.toNat - 1, by omega⟩
  rw [gateSteps_add, hsteps, gateSteps, gateStep_of_ended (by dsimp only; omega) (by dsimp only; omega)]
  exact gateSteps_of_idle rfl k

/-! ### A repeated note -/

/-- With the gate off and the output the last gated note, a gate step moves the phase alone (42_channel_processor.md R144). -/
theorem gateStep_of_repeated (hgate : r.gate = false) (hout : r.out.toNat = r.lgn.toNat) :
    ∃ x : BitVec 16, gateStep g r = { r with gph := x } := by
  rcases gateStep_cases g r with ⟨-, -, h⟩ | ⟨-, -, hne, -⟩ | ⟨-, -, -, h⟩ | ⟨-, -, h⟩ | ⟨-, -, h⟩ | ⟨-, h⟩
  · exact ⟨_, h⟩
  · exact absurd (zeroExtend_eq_iff.mpr hout) hne
  · exact ⟨_, h⟩
  · exact ⟨0, by rw [h, ← hgate]⟩
  · exact ⟨_, h⟩
  · exact ⟨r.gph, h⟩

end

/-! ### The obligations -/

/-- Settles O60, a phase of the gate at a time. -/
theorem gateStepRule : Obligations.GateStepRule := by
  rintro g r u rfl
  refine ⟨fun h => ?settles, fun h => ⟨fun hout => ?starts, fun hout hgate => ?restarts, fun hout hgate => ?stays⟩,
    gateStep_of_idle, gateStep_of_ended, fun h hlt hg => ?counts⟩
  case settles =>
    rw [gateStep_of_counts (.inl h)]
    exact ⟨rfl, toInt_succ (by omega)⟩
  case starts =>
    rw [gateStep_of_elapsed_new h hout]
    exact ⟨rfl, (zeroExtend_eq_iff.mp rfl).symm⟩
  case restarts => rw [gateStep_of_elapsed_same h hout, if_pos hgate]
  case stays => rw [gateStep_of_elapsed_same h hout, hgate, if_neg Bool.false_ne_true]
  case counts =>
    rw [gateStep_of_counts (.inr ⟨h, hlt⟩)]
    exact ⟨rfl, toInt_succ_of_counts hg (.inr ⟨h, hlt⟩)⟩

/-- Settles O43: the settling delay counts up to -1, and the gate's timer runs from there. -/
theorem gateTimingAfterAcceptance : Obligations.GateTimingAfterAcceptance := by
  intro g settle r n hs1 hs2 hg1 hg2 hgph hgate hout
  have settling : ∀ m < settle, ∃ x : BitVec 16, gateSteps g m r = { r with gph := x } ∧ x.toInt = r.gph.toInt + m :=
    fun m hm => gateSteps_of_counts hg2 fun i hi => .inl (by omega)
  obtain ⟨x, hsteps, hx⟩ := settling (settle - 1) (by omega)
  have hlast : x.toInt = -1 := by omega
  refine ⟨fun hn => ?_, fun hn hlt => ?_, fun hn => ?_⟩
  · obtain ⟨y, hoff, -⟩ := settling n hn
    rw [hoff]
    exact hgate
  · obtain ⟨k, rfl⟩ : ∃ k, n = settle - 1 + (k + 1) := ⟨n - settle, by omega⟩
    obtain ⟨y, -, hon⟩ := gateSteps_elapsed_new (r := { r with gph := x }) (n := k) hg2 hlast hout (by omega)
    rw [gateSteps_add, hsteps, hon]
    exact ⟨rfl, (zeroExtend_eq_iff.mp rfl).symm⟩
  · obtain ⟨k, rfl⟩ : ∃ k, n = settle - 1 + k := ⟨n - (settle - 1), by omega⟩
    rw [gateSteps_add, hsteps, gateSteps_ended (r := { r with gph := x }) hg1 hg2 hlast hout (by omega)]
    exact ⟨rfl, rfl⟩

/-- Settles O44, by induction on the number of gate steps. -/
theorem repeatedNoteRaisesNoGate : Obligations.RepeatedNoteRaisesNoGate := by
  intro g r n hgate hout
  induction n generalizing r with
  | zero => exact ⟨hgate, rfl, rfl⟩
  | succ n ih =>
    obtain ⟨x, hstep⟩ := gateStep_of_repeated (g := g) hgate hout
    rw [gateSteps, hstep]
    exact ih { r with gph := x } hgate hout

end Sys2Proof.Machine
end

section
/-! The channel invocation `CHANPROC` (42_channel_processor.md R140 to R152): its candidate, its acceptance, and the state it
leaves. -/

namespace Sys2Proof.Machine

/-! ### What the keyboard flag and the strobe leave -/

@[simp] theorem chan_clearKbdtrig (c d : Chan) (s : State) : (s.clearKbdtrig c).chan d = s.chan d := by
  cases c <;> cases d <;> rfl

@[simp] theorem chan_strobePitch (c d : Chan) (s : State) : (strobePitch c s).chan d = s.chan d := by
  cases c <;> cases d <;> rfl

@[simp] theorem kbdtrig_setChan (c d : Chan) (r : Channel) (s : State) : (s.setChan c r).kbdtrig d = s.kbdtrig d := by
  cases c <;> cases d <;> rfl

@[simp] theorem kbdtrig_strobePitch (c d : Chan) (s : State) : (strobePitch c s).kbdtrig d = s.kbdtrig d := by
  cases c <;> cases d <;> rfl

/-- An acceptance overwrites the channel's registers; it does not look at the keyboard flag. -/
theorem accept_setChan (c : Chan) (n : Note) (r : Channel) (s : State) :
    accept c n (s.setChan c r) = strobePitch c (s.setChan c (acceptNote s.params s.cfg.legato n r)) := by
  cases c <;> rfl

theorem accept_clearKbdtrig (c : Chan) (n : Note) (s : State) :
    accept c n (s.clearKbdtrig c) = (accept c n s).clearKbdtrig c := by
  cases c <;> rfl

theorem strobePitch_clearKbdtrig (c : Chan) (s : State) :
    strobePitch c (s.clearKbdtrig c) = (strobePitch c s).clearKbdtrig c := by
  cases c <;> rfl

/-! ### The candidate and the acceptance rule -/

theorem acceptIf_of_accepted {k : Candidate} {n : Note} (hn : k.note = some n) (ht : k.trig = true) (c : Chan) (s : State) :
    acceptIf c k s = accept c n s := by
  simp only [acceptIf, hn, ht, if_true]

theorem acceptIf_of_rejected {k : Candidate} (h : k.note = none ∨ k.trig = false) (c : Chan) (s : State) :
    acceptIf c k s = s := by
  rcases acceptIf_cases c k s with hs | ⟨n, hn, ht, -⟩
  · exact hs
  · rw [hn, ht] at h
    rcases h with h | h <;> cases h

theorem candidateOf_keyboard {s : State} (h : s.kbdact = true) (c : Chan) (raw : BitVec 10) (fire : Bool) :
    candidateOf s c raw fire = ⟨range s.kbdnote.toNat, s.kbdtrig c⟩ := if_pos h

theorem candidateOf_freeRunning {s : State} {c : Chan} (h : s.kbdact = false) (hm : (s.chan c).mode = .freeRunning)
    (raw : BitVec 10) (fire : Bool) :
    candidateOf s c raw fire = ⟨pitchCandidate s c raw, decide (pitchCandidate s c raw ≠ some (s.chan c).out)⟩ := by
  simp only [candidateOf, h, hm, Bool.false_eq_true, if_false]

theorem candidateOf_triggered {s : State} {c : Chan} (h : s.kbdact = false) (hm : (s.chan c).mode = .triggered)
    (raw : BitVec 10) (fire : Bool) : candidateOf s c raw fire = ⟨pitchCandidate s c raw, fire⟩ := by
  simp only [candidateOf, h, hm, Bool.false_eq_true, if_false]

/-! ### The invocation -/

section
variable {c : Chan} {raw : BitVec 10} {lvl : Bool} {s : State} {r : Channel} {fire : Bool}

/-- In manual override an invocation accepts the keyboard note by the channel's flag, and spends the flag. -/
theorem chanProc_keyboard (hr : channelInput s.params s.gatelen s.cfg.tds lvl (s.chan c) = (r, fire))
    (hk : s.kbdact = true) :
    chanProc c raw lvl s =
      (acceptIf c ⟨range s.kbdnote.toNat, s.kbdtrig c⟩ (s.setChan c r)).clearKbdtrig c := by
  have hk' : (s.setChan c r).kbdact = true := by rwa [setChan_kbdact]
  simp only [chanProc, hr, spendKbdtrig, hk', if_true, candidateOf_keyboard hk', setChan_kbdnote, kbdtrig_setChan]
  cases hn : range s.kbdnote.toNat with
  | none => rfl
  | some n =>
    cases ht : s.kbdtrig c with
    | false => rfl
    | true => exact accept_clearKbdtrig c n _

/-- On the normal path an invocation accepts by the candidate of its sample; no flag is spent. -/
theorem chanProc_normal (hr : channelInput s.params s.gatelen s.cfg.tds lvl (s.chan c) = (r, fire))
    (hk : s.kbdact = false) :
    chanProc c raw lvl s = acceptIf c (candidateOf (s.setChan c r) c raw fire) (s.setChan c r) := by
  simp only [chanProc, hr, spendKbdtrig, setChan_kbdact, hk, Bool.false_eq_true, if_false]

/-- Everything an invocation can do: it writes the channel's registers, perhaps spends its keyboard flag and perhaps drives
its strobe. -/
theorem chanProc_effects (c : Chan) (raw : BitVec 10) (lvl : Bool) (s : State) :
    ∃ (r : Channel) (spent strobed : Bool), chanProc c raw lvl s =
      let t := s.setChan c r
      let u := if spent then t.clearKbdtrig c else t
      if strobed then strobePitch c u else u := by
  obtain ⟨⟨r, fire⟩, hr⟩ : ∃ x, channelInput s.params s.gatelen s.cfg.tds lvl (s.chan c) = x := ⟨_, rfl⟩
  cases hk : s.kbdact with
  | true =>
    rw [chanProc_keyboard hr hk]
    rcases acceptIf_cases c ⟨range s.kbdnote.toNat, s.kbdtrig c⟩ (s.setChan c r) with h | ⟨n, -, -, h⟩ <;> rw [h]
    · exact ⟨r, true, false, rfl⟩
    · rw [accept_setChan, ← strobePitch_clearKbdtrig]
      exact ⟨_, true, true, rfl⟩
  | false =>
    rw [chanProc_normal hr hk]
    rcases acceptIf_cases c (candidateOf (s.setChan c r) c raw fire) (s.setChan c r) with h | ⟨n, -, -, h⟩ <;> rw [h]
    · exact ⟨r, false, false, rfl⟩
    · rw [accept_setChan]
      exact ⟨_, false, true, rfl⟩

/-- What an acceptance leaves in the channel, with `LEGATO_ARMS` at the spec's value (42_channel_processor.md R152). -/
theorem acceptNote_of_legatoArms {p : Params} (hp : p.legatoArms = true) (legato : Bool) (n : Note) (r : Channel) :
    acceptNote p legato n r =
      { r with out := n, gate := legato && r.gate, gph := BitVec.ofInt 16 (-(p.settle : Int)) } := by
  cases legato <;> simp [acceptNote, hp]

end

/-- The channel after an invocation in manual override, from its registers `r` after the input sub-steps. -/
def keyboardChannel (p : Params) (legato : Bool) (note : NoteValue) (trig : Bool) (r : Channel) : Channel :=
  match note with
  | none => r
  | some n => if trig then acceptNote p legato n r else r

theorem chan_chanProc_keyboard (c : Chan) (raw : BitVec 10) (lvl : Bool) {s : State} (hk : s.kbdact = true) :
    (chanProc c raw lvl s).chan c = keyboardChannel s.params s.cfg.legato (range s.kbdnote.toNat) (s.kbdtrig c)
      (channelInput s.params s.gatelen s.cfg.tds lvl (s.chan c)).1 := by
  rw [chanProc_keyboard rfl hk, chan_clearKbdtrig]
  cases range s.kbdnote.toNat with
  | none => exact chan_setChan_self c _ s
  | some n =>
    cases s.kbdtrig c with
    | false => exact chan_setChan_self c _ s
    | true =>
      rw [acceptIf_of_accepted rfl rfl, accept_setChan, chan_strobePitch, chan_setChan_self]
      rfl

/-! ### The obligations -/

/-- Settles O27, from the effects an invocation can have, each on its own channel alone. -/
theorem channelInvocationFrame : Obligations.ChannelInvocationFrame := by
  intro c d raw lvl s hd
  obtain ⟨r, spent, strobed, h⟩ := chanProc_effects c raw lvl s
  refine ⟨_, h, ?chan, ?kbdtrig, ?frame, ?strobe0, ?strobe1⟩
  case chan => cases spent <;> cases strobed <;> simp [chan_setChan_of_ne hd]
  case kbdtrig => cases spent <;> cases strobed <;> simp [kbdtrig_clearKbdtrig_of_ne hd]
  case frame => cases spent <;> cases strobed <;> cases c <;> rfl
  case strobe0 => rintro rfl; cases spent <;> cases strobed <;> rfl
  case strobe1 => rintro rfl; cases spent <;> cases strobed <;> rfl

/-- Settles O39, by the two paths of an invocation and the acceptance rule on the candidate of each. -/
theorem acceptanceRule : Obligations.AcceptanceRule := by
  intro c raw lvl s r₁ r fire taken harms hcount hr htaken
  have hin : channelInput s.params s.gatelen s.cfg.tds lvl (s.chan c) = (r, fire) := by
    simp only [channelInput, hcount, hr]
  have haccept : ∀ n, accept c n (s.setChan c r) = strobePitch c (s.setChan c (taken n)) := fun n => by
    rw [accept_setChan, acceptNote_of_legatoArms harms, htaken]
  refine ⟨fun hk => ?keyboard, fun hk cand hcand => ?normal⟩
  case keyboard =>
    rw [chanProc_keyboard hin hk]
    refine ⟨fun n hn ht => ?_, fun hno => ?_⟩
    · rw [acceptIf_of_accepted hn ht, haccept, strobePitch_clearKbdtrig]
    · rw [acceptIf_of_rejected hno]
  case normal =>
    have hk' : (s.setChan c r).kbdact = false := by rwa [setChan_kbdact]
    have hself := chan_setChan_self c r s
    rw [chanProc_normal hin hk]
    refine ⟨fun n hn htrig => ?_, fun hno => ?_⟩
    · rw [← haccept]
      rcases htrig with ⟨hm, hne⟩ | ⟨hm, rfl⟩
      · rw [candidateOf_freeRunning hk' (by rw [hself, hm]), ← hcand, hself]
        exact acceptIf_of_accepted hn (by simp [hn, hne]) c _
      · rw [candidateOf_triggered hk' (by rw [hself, hm]), ← hcand]
        exact acceptIf_of_accepted hn rfl c _
    · refine acceptIf_of_rejected ?_ c _
      cases hm : r.mode with
      | freeRunning =>
        rw [candidateOf_freeRunning hk' (by rw [hself, hm]), ← hcand, hself]
        simpa [hm] using hno
      | triggered =>
        rw [candidateOf_triggered hk' (by rw [hself, hm]), ← hcand]
        simpa [hm] using hno

/-- Settles O46: the channel is a function of registers that the two states share. -/
theorem keyboardIgnoresSample : Obligations.KeyboardIgnoresSample := by
  intro c raw raw' lvl s trg ofg trc ofc rs o hk
  refine (chan_chanProc_keyboard c raw lvl hk).trans (.trans ?_ (chan_chanProc_keyboard c raw' lvl ?_).symm)
  · cases c <;> rfl
  · exact hk

end Sys2Proof.Machine
end

section
/-! The modulation sums and the candidate of the normal path (42_channel_processor.md R148 to R150), and the commands that
write one Configuration register (R155 to R161). -/

namespace Sys2Proof.Machine

/-! ### The modulation sums -/

theorem toInt_byte_bounds (v : BitVec 8) : -128 ≤ v.toInt ∧ v.toInt ≤ 127 := by
  have hlo := BitVec.le_toInt v
  have hhi := BitVec.toInt_lt (x := v)
  omega

section
variable {p : Params} {c : Chan}

theorem oneChOnly_of_eq (h : c = p.oneCh) (v : BitVec 8) : oneChOnly p c v = v.toInt := if_pos h

theorem oneChOnly_of_ne (h : c ≠ p.oneCh) (v : BitVec 8) : oneChOnly p c v = 0 := if_neg h

theorem oneChOnly_bounds (p : Params) (c : Chan) (v : BitVec 8) : -128 ≤ oneChOnly p c v ∧ oneChOnly p c v ≤ 127 := by
  have hv := toInt_byte_bounds v
  by_cases h : c = p.oneCh
  · rwa [oneChOnly_of_eq h]
  · rw [oneChOnly_of_ne h]
    omega

end

/-- The overlay's contributions start at -127 in a sound state, being centred values (43_aux_processor.md R182). -/
theorem Inv.contribution_bounds {s : State} (h : Inv s) (a : Aux) (c : Chan) :
    (-127 ≤ (s.ov.ovtr a c).toInt ∧ (s.ov.ovtr a c).toInt ≤ 127) ∧
      -127 ≤ (s.ov.ovof a c).toInt ∧ (s.ov.ovof a c).toInt ≤ 127 := by
  obtain ⟨-, -, -, -, hsum⟩ := h.overlay
  obtain ⟨htr, hof⟩ := hsum a c
  exact ⟨⟨htr, (toInt_byte_bounds _).2⟩, hof, (toInt_byte_bounds _).2⟩

theorem Inv.ofSum_bounds {s : State} (h : Inv s) (c : Chan) : -510 ≤ ofSum s c ∧ ofSum s c ≤ 508 := by
  obtain ⟨-, h0⟩ := h.contribution_bounds .in0 c
  obtain ⟨-, h1⟩ := h.contribution_bounds .in1 c
  have hg := toInt_byte_bounds s.cfg.ofg
  have hc := oneChOnly_bounds s.params c s.cfg.ofc
  unfold ofSum
  omega

theorem Inv.trSum_bounds {s : State} (h : Inv s) (c : Chan) : -510 ≤ trSum s c ∧ trSum s c ≤ 508 := by
  obtain ⟨h0, -⟩ := h.contribution_bounds .in0 c
  obtain ⟨h1, -⟩ := h.contribution_bounds .in1 c
  have hg := toInt_byte_bounds s.cfg.trg
  have hc := oneChOnly_bounds s.params c s.cfg.trc
  unfold trSum
  omega

/-- Settles O38: the channel-specific term is there for `ONE_CH` only, and every term is bounded by its register. -/
theorem modulationSums : Obligations.ModulationSums := by
  intro s c
  refine ⟨fun h => ?_, fun h => ?_, fun h => ?_⟩
  · rw [ofSum, trSum, oneChOnly_of_eq h, oneChOnly_of_eq h]
    exact ⟨rfl, rfl⟩
  · rw [ofSum, trSum, oneChOnly_of_ne h, oneChOnly_of_ne h, add_zero, add_zero]
    exact ⟨rfl, rfl⟩
  · exact ⟨(h.ofSum_bounds c).1, (h.ofSum_bounds c).2, h.trSum_bounds c⟩

/-! ### The candidate -/

/-- The transpose comes after the quantizer: the candidate is a note where the quantizer's note moved by it is one. -/
theorem pitchCandidate_eq_some {s : State} {c : Chan} {raw : BitVec 10} {n : Note} :
    pitchCandidate s c raw = some n ↔
      ∃ m : Note, quantize s.params.tieRemBiased s.cfg.qmode s.rscale (hyst s.params (s.chan c) raw + 8 * ofSum s c) =
        some m ∧ (n.toNat : Int) = m.toNat + trSum s c := by
  unfold pitchCandidate
  dsimp only
  cases quantize s.params.tieRemBiased s.cfg.qmode s.rscale (hyst s.params (s.chan c) raw + 8 * ofSum s c) with
  | none => simp
  | some m =>
    simp only [range_eq_some, Option.some.injEq, exists_eq_left']
    exact eq_comm

/-- The algorithm by the number in `QMODE` (41_quantization_engine.md R127). -/
theorem quantize_of_bits {biased : Bool} {mode : QMode} {w : BitVec 16} {x : Int} {q : NoteValue}
    (h : qmodeBits mode = 0#2 ∧ q = qNearest biased w x ∨ qmodeBits mode = 1#2 ∧ q = qSkip w x ∨
      qmodeBits mode = 2#2 ∧ q = qEqual w x) : q = quantize biased mode w x := by
  cases mode <;> simpa [qmodeBits, quantize] using h

/-- Settles O40: hysteresis and offset give the quantizer its sample, the transpose moves its note. -/
theorem candidateArithmeticOrder : Obligations.CandidateArithmeticOrder := by
  intro s c raw n h x q hh hx hq
  have hhyst : hyst s.params (s.chan c) raw = h := hysteresis_eq (by omega)
  rw [pitchCandidate_eq_some, hhyst, ← hx, quantize_of_bits hq]

/-! ### The commands of one register -/

/-- Settles O11: each of the seven commands is a write of the Configuration that marks the edit, once its operand is read. -/
theorem plainSetsWriteTheirRegister : Obligations.PlainSetsWriteTheirRegister := by
  rintro s edit rfl
  refine ⟨fun v => ⟨rfl, rfl, rfl, rfl⟩, fun f => rfl, fun q => ?_, fun d hd => ?_⟩
  · rw [exec, execSetqm, qmodeOf_bits]
    rfl
  · rw [exec, execSettds, index12_of_lt (by omega)]
    rfl

end Sys2Proof.Machine
end

section
/-! The trigger of a channel (42_channel_processor.md R146, R147, R153): the delay `TDLY` and the inactivity count `TCNT`
through the sub-steps of an invocation. -/

namespace Sys2Proof.Machine

/-! ### The trigger registers through the other sub-steps -/

/-- `GateStep` writes the gate, the last gated note and the phase only. -/
theorem gateStep_frame (g : BitVec 16) (r : Channel) :
    ∃ gate lgn gph, gateStep g r = { r with gate := gate, lgn := lgn, gph := gph } := by
  rcases gateStep_cases g r with ⟨-, -, h⟩ | ⟨-, -, -, h⟩ | ⟨-, -, -, h⟩ | ⟨-, -, h⟩ | ⟨-, -, h⟩ | ⟨-, h⟩ <;>
    exact ⟨_, _, _, h⟩

/-- `TrigCountdown` writes the delay only, and lowers it by 1 down to 0; it fires where the delay was 1. -/
theorem trigCountdown_eq (r : Channel) :
    ∃ d : BitVec 8, trigCountdown r = ({ r with tdly := d }, decide (r.tdly.toNat = 1)) ∧ d.toNat = r.tdly.toNat - 1 := by
  rcases trigCountdown_cases r with ⟨h0, h⟩ | ⟨h0, h⟩
  · have hzero : r.tdly.toNat = 0 := congrArg BitVec.toNat h0
    exact ⟨r.tdly, by rw [h, decide_eq_false (by omega)], by omega⟩
  · have hpos : r.tdly.toNat ≠ 0 := fun hz => h0 (BitVec.eq_of_toNat_eq hz)
    refine ⟨r.tdly - 1, ?_, by bv_omega⟩
    have hone : (r.tdly = 1) ↔ r.tdly.toNat = 1 := by rw [← BitVec.toNat_inj]; rfl
    simp only [h, hone]

/-- `TrigInput` reads the channel with its gate moved and its delay counted down; the invocation fires by the delay. -/
theorem channelInput_eq (p : Params) (g : BitVec 16) (tds : BitVec 4) (lvl : Bool) (r : Channel) :
    ∃ (gate : Bool) (lgn : BitVec 8) (gph : BitVec 16) (d : BitVec 8), d.toNat = r.tdly.toNat - 1 ∧
      channelInput p g tds lvl r =
        (trigInput p tds lvl { r with gate := gate, lgn := lgn, gph := gph, tdly := d }, decide (r.tdly.toNat = 1)) := by
  obtain ⟨gate, lgn, gph, hgate⟩ := gateStep_frame g r
  obtain ⟨d, hcount, hd⟩ := trigCountdown_eq (gateStep g r)
  rw [hgate] at hcount hd
  exact ⟨gate, lgn, gph, d, hd, by rw [channelInput, hgate, hcount]⟩

/-! ### `TrigInput` -/

theorem trigInput_active (p : Params) (tds : BitVec 4) {lvl : Bool} {r : Channel} (h : lvl = true ∨ r.elatch = true) :
    trigInput p tds lvl r = { r with
      elatch := false
      mode := .triggered
      tdly := if p.trigDebounceMin ≤ r.tcnt.toNat then BitVec.ofNat 8 (1 + p.trigDelayK * tds.toNat) else r.tdly
      tcnt := 0 } := if_pos (by simpa using h)

/-- The trigger delay fits its register (00_scope.md R8). -/
theorem toNat_trigDelay {p : Params} (hp : p.valid = true) {tds : BitVec 4} (ht : tds.toNat ≤ 11) :
    (BitVec.ofNat 8 (1 + p.trigDelayK * tds.toNat)).toNat = 1 + p.trigDelayK * tds.toNat := by
  have hle : p.trigDelayK * tds.toNat ≤ p.trigDelayK * 11 := Nat.mul_le_mul_left _ ht
  have hmax := (Params.valid_iff.mp hp).trigDelay
  rw [BitVec.toNat_ofNat, Nat.mod_eq_of_lt (by omega)]

/-- The inactivity count below the timeout counts without wrapping. -/
theorem toNat_succ_of_lt_trigTimeout {p : Params} (hp : p.valid = true) {x : BitVec 16} (h : x.toNat < p.trigTimeout) :
    (x + 1).toNat = x.toNat + 1 := by
  have hmax := (Params.valid_iff.mp hp).trigTimeout
  bv_omega

/-- An inactive observation below the timeout. -/
theorem trigInput_counts (p : Params) (tds : BitVec 4) {r : Channel} (hl : r.elatch = false)
    (h : r.tcnt.toNat < p.trigTimeout) :
    trigInput p tds false r = { r with
      tcnt := r.tcnt + 1
      mode := if p.trigTimeout ≤ (r.tcnt + 1).toNat then .freeRunning else r.mode } := by
  simp only [trigInput_inactive p tds r hl, h, if_true]

/-- An inactive observation at the timeout: the count is saturated. -/
theorem trigInput_saturated (p : Params) (tds : BitVec 4) {r : Channel} (hl : r.elatch = false)
    (h : p.trigTimeout ≤ r.tcnt.toNat) : trigInput p tds false r = { r with mode := .freeRunning } := by
  simp only [trigInput_inactive p tds r hl, not_lt.mpr h, h, if_false, if_true]

/-! ### An armed delay -/

/-- An invocation with an active level and the debounce met arms the delay. -/
theorem channelInput_arms {p : Params} (hp : p.valid = true) {tds : BitVec 4} (ht : tds.toNat ≤ 11) (g : BitVec 16)
    {r : Channel} (h : p.trigDebounceMin ≤ r.tcnt.toNat) :
    (channelInput p g tds true r).1.tdly.toNat = 1 + p.trigDelayK * tds.toNat ∧
      (channelInput p g tds true r).1.elatch = false := by
  obtain ⟨gate, lgn, gph, d, -, hin⟩ := channelInput_eq p g tds true r
  rw [hin, trigInput_active p tds (.inl rfl)]
  exact ⟨by simp only [h, if_true, toNat_trigDelay hp ht], rfl⟩

/-- An invocation with an inactive trigger counts the delay down and fires where it was 1. -/
theorem channelInput_counts_down (p : Params) (g : BitVec 16) (tds : BitVec 4) {r : Channel} (hl : r.elatch = false) :
    (channelInput p g tds false r).1.tdly.toNat = r.tdly.toNat - 1 ∧ (channelInput p g tds false r).1.elatch = false ∧
      ((channelInput p g tds false r).2 = true ↔ r.tdly.toNat = 1) := by
  obtain ⟨gate, lgn, gph, d, hd, hin⟩ := channelInput_eq p g tds false r
  rw [hin, trigInput_inactive p tds _ (by exact hl)]
  exact ⟨hd, hl, decide_eq_true_iff⟩

theorem idleInputs_counts_down (p : Params) (g : BitVec 16) (tds : BitVec 4) {r : Channel} (hl : r.elatch = false)
    (n : Nat) : (idleInputs p g tds n r).1.tdly.toNat = r.tdly.toNat - n ∧ (idleInputs p g tds n r).1.elatch = false := by
  induction n with
  | zero => exact ⟨rfl, hl⟩
  | succ n ih =>
    obtain ⟨hd, hl', -⟩ := channelInput_counts_down p g tds ih.2
    exact ⟨by rw [idleInputs, hd, ih.1]; omega, hl'⟩

/-! ### The inactivity count over a run of invocations -/

/-- A channel in triggered mode up to the timeout, and in free-running mode from there, `k` inactive observations after the
last active one. -/
structure InactiveFor (p : Params) (k : Nat) (r : Channel) : Prop where
  elatch : r.elatch = false
  tcnt   : r.tcnt.toNat = k
  mode   : r.mode = if k < p.trigTimeout then .triggered else .freeRunning

section
variable {p : Params} {k : Nat} {r : Channel}

theorem inactiveFor_trigInput_active (hp : p.valid = true) (tds : BitVec 4) (r : Channel) :
    InactiveFor p 0 (trigInput p tds true r) := by
  have hmax := (Params.valid_iff.mp hp).trigTimeout
  rw [trigInput_active p tds (.inl rfl)]
  exact ⟨rfl, rfl, (if_pos (by omega)).symm⟩

theorem inactiveFor_trigInput (h : InactiveFor p k r) (hp : p.valid = true) (tds : BitVec 4) (hk : k < p.trigTimeout) :
    InactiveFor p (k + 1) (trigInput p tds false r) := by
  obtain ⟨hl, hcount, hmode⟩ := h
  have hlt : r.tcnt.toNat < p.trigTimeout := by omega
  have hsucc : (r.tcnt + 1).toNat = k + 1 := by rw [toNat_succ_of_lt_trigTimeout hp hlt, hcount]
  rw [trigInput_counts p tds hl hlt]
  refine ⟨hl, hsucc, ?_⟩
  dsimp only
  rw [hsucc, hmode, if_pos hk]
  simp only [← not_lt, ite_not]

/-- The gate step and the countdown leave what the count speaks of. -/
theorem inactiveFor_channelInput (h : InactiveFor p k r) (hp : p.valid = true) (g : BitVec 16) (tds : BitVec 4)
    (hk : k < p.trigTimeout) : InactiveFor p (k + 1) (channelInput p g tds false r).1 := by
  obtain ⟨gate, lgn, gph, d, -, hin⟩ := channelInput_eq p g tds false r
  rw [hin]
  refine inactiveFor_trigInput ?_ hp tds hk
  exact ⟨h.elatch, h.tcnt, h.mode⟩

theorem inactiveFor_channelInput_active (hp : p.valid = true) (g : BitVec 16) (tds : BitVec 4) (r : Channel) :
    InactiveFor p 0 (channelInput p g tds true r).1 :=
  inactiveFor_trigInput_active hp tds _

/-- An acceptance leaves what the count speaks of. -/
theorem inactiveFor_acceptNote (h : InactiveFor p k r) (legato : Bool) (n : Note) :
    InactiveFor p k (acceptNote p legato n r) := ⟨h.elatch, h.tcnt, h.mode⟩

end

/-- An invocation leaves the parameters, and an inactivity count as its input sub-steps leave it. -/
theorem inactiveFor_chanProc {c : Chan} {lvl : Bool} {s : State} {k : Nat}
    (h : InactiveFor s.params k (channelInput s.params s.gatelen s.cfg.tds lvl (s.chan c)).1) (raw : BitVec 10) :
    (chanProc c raw lvl s).params = s.params ∧ InactiveFor s.params k ((chanProc c raw lvl s).chan c) := by
  obtain ⟨r, k0, k1, ports, he, hr⟩ := chanProc_cases c raw lvl s
  have hchan : (chanProc c raw lvl s).chan c = r := by rw [he]; cases c <;> rfl
  refine ⟨by rw [he]; exact setChan_params c r s, ?_⟩
  rw [hchan]
  rcases hr with rfl | ⟨n, rfl⟩
  · exact h
  · exact inactiveFor_acceptNote h _ n

theorem inactiveFor_invocations {c : Chan} (raws : List (BitVec 10)) {s : State} {k : Nat}
    (h : InactiveFor s.params k (s.chan c)) (hp : s.params.valid = true) (hk : k + raws.length ≤ s.params.trigTimeout) :
    InactiveFor s.params (k + raws.length) ((invocations c false raws s).chan c) := by
  induction raws generalizing s k with
  | nil => exact h
  | cons raw raws ih =>
    rw [List.length_cons] at hk ⊢
    obtain ⟨hparams, hnext⟩ := inactiveFor_chanProc (inactiveFor_channelInput h hp s.gatelen s.cfg.tds (by omega)) raw
    rw [← hparams] at hnext hp hk ⊢
    rw [invocations, add_comm raws.length, ← add_assoc]
    exact ih hnext hp (by omega)

/-! ### The obligations -/

/-- Settles O41, by the observations of the trigger: active, inactive below the timeout, inactive at it. -/
theorem triggerInputRule : Obligations.TriggerInputRule := by
  intro p tds lvl r hp ht
  refine ⟨fun h => ?active, ?inactive⟩
  case active =>
    refine ⟨_, trigInput_active p tds h, rfl, fun hmin => ?_, fun hlt => if_neg (not_le.mpr hlt)⟩
    rw [if_pos hmin, toNat_trigDelay hp ht]
  case inactive =>
    rintro rfl hl
    rcases lt_or_ge r.tcnt.toNat p.trigTimeout with hlt | hge
    · exact ⟨_, trigInput_counts p tds hl hlt, rfl, fun _ => toNat_succ_of_lt_trigTimeout hp hlt,
        fun hge => absurd hge (not_le.mpr hlt), fun hend => if_pos hend, fun hgo => if_neg (not_le.mpr hgo)⟩
    · exact ⟨_, trigInput_saturated p tds hl hge, rfl, fun hlt => absurd hge (not_le.mpr hlt),
        fun _ => rfl, fun _ => rfl, fun hlt => absurd hge (not_le.mpr hlt)⟩

/-- Settles O42: `n` invocations after the arming the delay is `D - n`, and it fires where it was 1. -/
theorem triggerDelayIsExact : Obligations.TriggerDelayIsExact := by
  refine ⟨fun r => ?countdown, fun p g tds r n hp ht hmin => ?exact⟩
  case countdown =>
    obtain ⟨d, hcount, hd⟩ := trigCountdown_eq r
    refine ⟨fun h0 => ?_, fun h1 => ?_, fun h2 => ⟨d, ?_, by omega⟩⟩
    · have hkeep : d = r.tdly := BitVec.eq_of_toNat_eq (by omega)
      rw [hcount, hkeep, h0]
      rfl
    · have hzero : d = 0 := BitVec.eq_of_toNat_eq (by simp [hd, h1])
      rw [hcount, hzero, h1]
      rfl
    · rw [hcount, decide_eq_false (by omega)]
  case exact =>
    obtain ⟨hdelay, hl⟩ := channelInput_arms hp ht g hmin
    cases n with
    | zero =>
      rw [idleInputs]
      simp only [Bool.false_eq_true, false_iff]
      omega
    | succ n =>
      obtain ⟨hleft, hl'⟩ := idleInputs_counts_down p g tds hl n
      obtain ⟨-, -, hfire⟩ := channelInput_counts_down p g tds hl'
      rw [idleInputs, hfire, hleft, hdelay]
      omega

/-- Settles O45, by the inactivity count after the active invocation and the run that follows it. -/
theorem triggeredModeRoundTrip : Obligations.TriggeredModeRoundTrip := by
  intro c s raw raws hp
  have hpos := (Params.valid_iff.mp hp).trigTimeout
  obtain ⟨hparams, hactive⟩ := inactiveFor_chanProc (inactiveFor_channelInput_active hp s.gatelen s.cfg.tds (s.chan c)) raw
  have hrun : raws.length ≤ s.params.trigTimeout →
      InactiveFor s.params (0 + raws.length) ((invocations c false raws (chanProc c raw true s)).chan c) := fun hle => by
    rw [← hparams] at hactive hp hle ⊢
    exact inactiveFor_invocations raws hactive hp (by omega)
  refine ⟨?_, fun hlt => ?_, fun heq => ?_⟩
  · rw [hactive.mode, if_pos (by omega)]
  · rw [(hrun hlt.le).mode, if_pos (by omega)]
  · rw [(hrun heq.le).mode, if_neg (by omega)]

end Sys2Proof.Machine
end

section
/-! The auxiliary invocation `AUXPROC` by its two outcomes, an unchanged and a changed value, with the overlay registers each
effect writes (43_aux_processor.md R181 to R190). -/

namespace Sys2Proof.Machine

/-! ### The overlay registers of one input -/

section
variable (o : Overlay) (a : Aux) (v : BitVec 8)

theorem sameBut_setTr (c : Chan) : (o.setTr a c v).SameBut a o :=
  ⟨setTr_arot o a c v, setTr_gi o a c v, setTr_gr o a c v,
    fun b d hb => ⟨ovtr_setTr_of_ne o (fun h => hb h.1) v, setTr_ovof o a b c d v⟩⟩

theorem sameBut_setOf (c : Chan) : (o.setOf a c v).SameBut a o :=
  ⟨setOf_arot o a c v, setOf_gi o a c v, setOf_gr o a c v,
    fun b d hb => ⟨setOf_ovtr o a b c d v, ovof_setOf_of_ne o (fun h => hb h.1) v⟩⟩

theorem ovtr_setTr_both (c : Chan) : ((o.setTr a .ch0 v).setTr a .ch1 v).ovtr a c = v := by
  cases c with
  | ch0 => rw [ovtr_setTr_of_ne _ (by simp), ovtr_setTr_self]
  | ch1 => exact ovtr_setTr_self _ a .ch1 v

theorem ovof_setOf_both (c : Chan) : ((o.setOf a .ch0 v).setOf a .ch1 v).ovof a c = v := by
  cases c with
  | ch0 => rw [ovof_setOf_of_ne _ (by simp), ovof_setOf_self]
  | ch1 => exact ovof_setOf_self _ a .ch1 v

end

theorem Overlay.SameBut.trans {a : Aux} {o₁ o₂ o₃ : Overlay} (h : o₁.SameBut a o₂) (h' : o₂.SameBut a o₃) :
    o₁.SameBut a o₃ := by
  obtain ⟨hrot, hgi, hgr, hother⟩ := h
  obtain ⟨hrot', hgi', hgr', hother'⟩ := h'
  exact ⟨hrot.trans hrot', hgi.trans hgi', hgr.trans hgr', fun b c hb =>
    ⟨(hother b c hb).1.trans (hother' b c hb).1, (hother b c hb).2.trans (hother' b c hb).2⟩⟩

/-- No effect of input `a` reaches the other input's transpose and offset registers (43_aux_processor.md R180). -/
theorem auxEffect_other {a b : Aux} (hb : b ≠ a) (m : AuxMode) (v : Int) (s : State) (c : Chan) :
    (auxEffect a m v s).ov.ovtr b c = s.ov.ovtr b c ∧ (auxEffect a m v s).ov.ovof b c = s.ov.ovof b c := by
  have hother {o : Overlay} (h : o.SameBut a s.ov) : o.ovtr b c = s.ov.ovtr b c ∧ o.ovof b c = s.ov.ovof b c := by
    obtain ⟨-, -, -, h⟩ := h
    exact h b c hb
  cases m with
  | transpose => exact hother ((sameBut_setTr _ a _ .ch1).trans (sameBut_setTr _ a _ .ch0))
  | transpose1 => exact hother (sameBut_setTr _ a _ _)
  | offset => exact hother ((sameBut_setOf _ a _ .ch1).trans (sameBut_setOf _ a _ .ch0))
  | offset1 => exact hother (sameBut_setOf _ a _ _)
  | rotate | gateLength | scaleRecall | off => cases b <;> cases c <;> exact ⟨rfl, rfl⟩

/-! ### The gate-length mapping -/

theorem gateOverlay_eq (raw : BitVec 10) (s : State) :
    gateOverlay raw s = { s with
      ov := { s.ov with gi := (gateOverlay raw s).ov.gi, gr := (gateOverlay raw s).ov.gr },
      gatelen := (gateOverlay raw s).gatelen } := rfl

theorem gateOverlay_setAuxlast (raw : BitVec 10) (a : Aux) (q : BitVec 7) (s : State) :
    gateOverlay raw (s.setAuxlast a q) = (gateOverlay raw s).setAuxlast a q := by
  cases a <;> rfl

/-- The index fits the signed register `OVGI` (43_aux_processor.md R185). -/
theorem toInt_gateOverlay_gi {s : State} (hp : s.params.valid = true) (raw : BitVec 10) :
    (gateOverlay raw s).ov.gi.toInt = ((raw.toNat : Int) - s.params.gateZero) / 40 := by
  have hraw := raw.isLt
  have hzero := (Params.valid_iff.mp hp).gateZero
  exact toInt_ofInt_centred (by omega) (by omega)

theorem toNat_gateOverlay_gr (raw : BitVec 10) (s : State) :
    ((gateOverlay raw s).ov.gr.toNat : Int) = ((raw.toNat : Int) - s.params.gateZero) % 40 := by
  change ((BitVec.ofInt 6 (((raw.toNat : Int) - s.params.gateZero) % 40)).toNat : Int) = _
  rw [BitVec.toNat_ofInt]
  omega

/-! ### The invocation -/

/-- What an invocation does whether or not the value changes: the mapping, in gate-length mode only (43_aux_processor.md
R183). -/
def auxMapped (a : Aux) (raw : BitVec 10) (s : State) : State :=
  if s.auxm a = .gateLength then gateOverlay raw s else s

section
variable {a : Aux} {raw : BitVec 10} {s : State}

theorem auxMapped_of_gateLength (h : s.auxm a = .gateLength) : auxMapped a raw s = gateOverlay raw s := if_pos h

theorem auxMapped_of_ne (h : s.auxm a ≠ .gateLength) : auxMapped a raw s = s := if_neg h

theorem auxHyst_eq {p : Params} {last : BitVec 7} {h : Int}
    (hc : 8 * last.toNat < raw.toNat ∧ h = (raw.toNat : Int) - p.auxHystUp ∨
      raw.toNat < 8 * last.toNat ∧ h = (raw.toNat : Int) + p.auxHystDn ∨
      raw.toNat = 8 * last.toNat ∧ h = raw.toNat) : auxHyst p last raw = h :=
  hysteresis_eq (by omega)

/-- An invocation whose value does not change, or is none (43_aux_processor.md R184). -/
theorem auxProc_of_same (h : qSemi (auxHyst s.params (s.auxlast a) raw) = none ∨
    qSemi (auxHyst s.params (s.auxlast a) raw) = some (s.auxlast a)) : auxProc a raw s = auxMapped a raw s := by
  by_cases hm : s.auxm a = .gateLength
  · rw [auxProc, if_pos hm, auxMapped_of_gateLength hm]
    exact auxChange_of_same a raw (gateOverlay raw s) (by cases a <;> exact h)
  · rw [auxProc, if_neg hm, auxMapped_of_ne hm, auxChange_of_same a raw s h]

theorem auxChange_of_changed {q : Note} (hq : qSemi (auxHyst s.params (s.auxlast a) raw) = some q)
    (hne : q ≠ s.auxlast a) :
    auxChange a raw s = auxEffect a (s.auxm a) ((q.toNat : Int) - s.params.auxCenter) (s.setAuxlast a q) := by
  simp only [auxChange, hq, if_neg hne]

/-- An invocation whose value changes to `q`: its mode's effect, on the state with the new last value
(43_aux_processor.md R184). -/
theorem auxProc_of_changed {q : Note} (hq : qSemi (auxHyst s.params (s.auxlast a) raw) = some q)
    (hne : q ≠ s.auxlast a) :
    auxProc a raw s =
      auxEffect a (s.auxm a) ((q.toNat : Int) - s.params.auxCenter) (auxMapped a raw (s.setAuxlast a q)) := by
  have hmode : (s.setAuxlast a q).auxm a = s.auxm a := by cases a <;> rfl
  by_cases hm : s.auxm a = .gateLength
  · have hchange := auxChange_of_changed (s := gateOverlay raw s) (a := a) (raw := raw) (q := q)
      (by cases a <;> exact hq) (by cases a <;> exact hne)
    have hmode' : (gateOverlay raw s).auxm a = s.auxm a := by cases a <;> rfl
    rw [auxProc, if_pos hm, hchange, hmode', auxMapped_of_gateLength (hmode.trans hm), gateOverlay_setAuxlast]
    rfl
  · rw [auxProc, if_neg hm, auxChange_of_changed hq hne, auxMapped_of_ne (by rwa [hmode])]

/-- Outside gate-length mode an invocation whose value changes is its mode's effect and no more. -/
theorem auxProc_of_effect {m : AuxMode} {q : Note} {v : Int}
    (hq : qSemi (auxHyst s.params (s.auxlast a) raw) = some q) (hne : q ≠ s.auxlast a)
    (hv : v = (q.toNat : Int) - s.params.auxCenter) (hm : s.auxm a = m) (hg : m ≠ .gateLength) :
    auxProc a raw s = auxEffect a m v (s.setAuxlast a q) := by
  have hmode : (s.setAuxlast a q).auxm a = m := by cases a <;> exact hm
  rw [auxProc_of_changed hq hne, auxMapped_of_ne (by rwa [hmode]), hm, hv]

end

/-- Everything an auxiliary invocation can do. -/
theorem auxProc_cases (a : Aux) (raw : BitVec 10) (s : State) :
    auxProc a raw s = auxMapped a raw s ∨
      ∃ (q : Note) (v : Int), auxProc a raw s = auxEffect a (s.auxm a) v (auxMapped a raw (s.setAuxlast a q)) := by
  cases hq : qSemi (auxHyst s.params (s.auxlast a) raw) with
  | none => exact .inl (auxProc_of_same (.inl hq))
  | some q =>
    by_cases hne : q = s.auxlast a
    · exact .inl (auxProc_of_same (.inr (hne ▸ hq)))
    · exact .inr ⟨q, _, auxProc_of_changed hq hne⟩

end Sys2Proof.Machine
end

section
/-! The obligations about the auxiliary inputs: what `SETAUXM` releases, what an invocation reaches, and its effects. -/

namespace Sys2Proof.Machine

/-! ### `SETAUXM` -/

theorem exec_setauxm (a : Aux) (mode : AuxMode) (s : State) :
    exec (.setauxm a (auxModeBits mode)) s =
      .next (answer 0 (markEdit (recomputeGate (recomputeScale ((releaseAux a s).setAuxm a mode))))) := by
  simp only [exec, execSetauxm, auxModeOf_bits]

/-- The release reaches the overlay alone and the assignment of the mode the Configuration alone. -/
theorem setAuxm_releaseAux (a : Aux) (mode : AuxMode) (s : State) :
    (releaseAux a s).setAuxm a mode = { s with cfg := (s.setAuxm a mode).cfg, ov := (releaseAux a s).ov } := by
  rw [releaseAux_eq]
  cases a <;> rfl

/-- Settles O16: the overlay after the release is what `releaseAux_eq` says, and both derived registers follow it. -/
theorem setauxmReleasesInput : Obligations.SetauxmReleasesInput := by
  intro s a mode
  refine ⟨_, exec_setauxm a mode s, ?_⟩
  rw [setAuxm_releaseAux, releaseAux_eq]
  refine ⟨?frame, ?_, fun b hb => ?_, fun c => ⟨?_, ?_⟩, fun b c hb => ⟨?_, ?_⟩, rfl, rfl, rfl, ?_, ?_⟩
  case frame => cases a <;> rfl
  · exact auxm_setAuxm_self a mode s
  · exact auxm_setAuxm_of_ne hb mode s
  · exact (clearInput_ovtr s.ov a a c).trans (if_pos rfl)
  · exact (clearInput_ovof s.ov a a c).trans (if_pos rfl)
  · exact (clearInput_ovtr s.ov a b c).trans (if_neg hb)
  · exact (clearInput_ovof s.ov a b c).trans (if_neg hb)
  · cases a <;> rfl
  · cases a <;> rfl

/-! ### The frame of an invocation -/

/-- The other input's transpose and offset registers are out of an invocation's reach (43_aux_processor.md R180). -/
theorem auxProc_other {a b : Aux} (hb : b ≠ a) (raw : BitVec 10) (s : State) (c : Chan) :
    (auxProc a raw s).ov.ovtr b c = s.ov.ovtr b c ∧ (auxProc a raw s).ov.ovof b c = s.ov.ovof b c := by
  have hmapped (u : State) : (auxMapped a raw u).ov.ovtr b c = u.ov.ovtr b c ∧
      (auxMapped a raw u).ov.ovof b c = u.ov.ovof b c := by
    unfold auxMapped
    split
    · cases b <;> cases c <;> exact ⟨rfl, rfl⟩
    · exact ⟨rfl, rfl⟩
  rcases auxProc_cases a raw s with h | ⟨q, v, h⟩ <;> rw [h]
  · exact hmapped s
  · obtain ⟨htr, hof⟩ := auxEffect_other hb (s.auxm a) v (auxMapped a raw (s.setAuxlast a q)) c
    obtain ⟨htr', hof'⟩ := hmapped (s.setAuxlast a q)
    rw [setAuxlast_ov] at htr' hof'
    exact ⟨htr.trans htr', hof.trans hof'⟩

/-- In mode off an invocation can only move the last value (43_aux_processor.md R190). -/
theorem auxProc_off {a : Aux} {s : State} (hm : s.auxm a = .off) (raw : BitVec 10) :
    ∃ q, auxProc a raw s = s.setAuxlast a q := by
  have hmode (q : Note) : (s.setAuxlast a q).auxm a = .off := by cases a <;> exact hm
  rcases auxProc_cases a raw s with h | ⟨q, v, h⟩
  · refine ⟨s.auxlast a, ?_⟩
    rw [h, auxMapped_of_ne (by simp [hm])]
    cases a <;> rfl
  · refine ⟨q, ?_⟩
    rw [h, auxMapped_of_ne (by simp [hmode q]), hm]
    rfl

/-- Settles O28: the fields `auxProc_frame` lists, the other input's registers, and mode off. -/
theorem auxInvocationFrame : Obligations.AuxInvocationFrame := by
  intro a b raw s hb
  obtain ⟨q, cfg, ov, rscale, gatelen, h, hcfg, hmode⟩ := auxProc_frame a raw s
  refine ⟨_, rfl, ?_, auxProc_other hb raw s, ?_, ?_, ?_⟩
  · rw [h]
    exact auxlast_setAuxlast_of_ne hb q s
  · rw [h]
    dsimp only
    rw [← hcfg]
    cases a <;> rfl
  · rwa [h]
  · intro hm
    obtain ⟨q', h'⟩ := auxProc_off hm raw
    rw [h', auxlast_setAuxlast_self]

/-! ### The effects -/

/-- Settles O47: where the value is none or unchanged only the gate-length mapping is left. -/
theorem auxUnchangedValueFiresNothing : Obligations.AuxUnchangedValueFiresNothing := by
  intro a raw s h hh hq
  rw [← auxHyst_eq hh] at hq
  rw [auxProc_of_same hq]
  exact ⟨auxMapped_of_ne, auxMapped_of_gateLength⟩

/-- Settles O49: moving the dividend by `40 * b` moves the quotient by `b` and leaves the remainder. -/
theorem gateOverlayDivision : Obligations.GateOverlayDivision := by
  rintro raw s b t hp hb rfl
  have hgi := toInt_gateOverlay_gi hp raw
  have hgr := toNat_gateOverlay_gr raw s
  have hle : (gateOverlay raw s).ov.gr.toNat ≤ 39 := by omega
  exact ⟨by omega, by omega, (toNat_ofInt_gateLen hp hle).1, gateOverlay_eq raw s⟩

theorem toNat_ofNat_mod12 (v : Int) : ((BitVec.ofNat 4 (mod12 v).val).toNat : Int) = v % 12 := by
  have hlt := (mod12 v).isLt
  rw [BitVec.toNat_ofNat, ← mod12_val]
  omega

/-- `AUXLAST[a]` takes the changed value in every mode (43_aux_processor.md R184). -/
theorem auxlast_auxProc_of_changed {a : Aux} {raw : BitVec 10} {s : State} {q : Note}
    (hq : qSemi (auxHyst s.params (s.auxlast a) raw) = some q) (hne : q ≠ s.auxlast a) :
    (auxProc a raw s).auxlast a = q := by
  rw [auxProc_of_changed hq hne]
  obtain ⟨_, _, _, heffect, -⟩ := auxEffect_frame a (s.auxm a) ((q.toNat : Int) - s.params.auxCenter)
    (auxMapped a raw (s.setAuxlast a q))
  rw [heffect]
  unfold auxMapped
  split <;> cases a <;> rfl

/-- Settles O48: the mode's effect on the state with the new last value; the centred value fits its register. -/
theorem auxEffectsOnChange : Obligations.AuxEffectsOnChange := by
  rintro a raw s h q v t hp hh hq hne hv rfl
  rw [← auxHyst_eq hh] at hq
  have hbyte : (BitVec.ofInt 8 v).toInt = v := by
    have hlt := q.isLt
    have hcenter := (Params.valid_iff.mp hp).auxCenter
    exact toInt_ofInt_centred (by omega) (by omega)
  have heffect {m : AuxMode} (hm : s.auxm a = m) (hg : m ≠ .gateLength) :
      auxProc a raw s = auxEffect a m v (s.setAuxlast a q) := auxProc_of_effect hq hne hv hm hg
  refine ⟨auxlast_auxProc_of_changed hq hne, fun hm => ?rotate, fun hm => ?transpose, fun hm => ?transposeOne,
    fun hm => ?offset, fun hm => ?offsetOne, fun hm => ?scaleRecall, fun hm => ?gateLength, fun hm => ?off⟩
  case gateLength =>
    rw [auxProc_of_changed hq hne, hm, auxMapped_of_gateLength (by cases a <;> exact hm)]
    rfl
  all_goals rw [heffect hm (by simp)]
  case rotate =>
    rw [← setAuxlast_cfg a q s, ← setAuxlast_ov a q s]
    exact ⟨toNat_ofNat_mod12 v, rfl, rfl⟩
  case transpose =>
    rw [← setAuxlast_ov a q s]
    exact ⟨rfl, (sameBut_setTr _ a _ .ch1).trans (sameBut_setTr _ a _ .ch0), fun c =>
      ⟨(congrArg _ (ovtr_setTr_both _ a _ c)).trans hbyte, by simp [auxEffect]⟩⟩
  case transposeOne =>
    rw [← setAuxlast_ov a q s, ← setAuxlast_params a q s]
    exact ⟨rfl, sameBut_setTr _ a _ _, (congrArg _ (ovtr_setTr_self _ a _ _)).trans hbyte,
      fun c hc => ovtr_setTr_of_ne _ (fun h => hc h.2) _, fun c => setTr_ovof _ a a _ c _⟩
  case offset =>
    rw [← setAuxlast_ov a q s]
    exact ⟨rfl, (sameBut_setOf _ a _ .ch1).trans (sameBut_setOf _ a _ .ch0), fun c =>
      ⟨(congrArg _ (ovof_setOf_both _ a _ c)).trans hbyte, by simp [auxEffect]⟩⟩
  case offsetOne =>
    rw [← setAuxlast_ov a q s, ← setAuxlast_params a q s]
    exact ⟨rfl, sameBut_setOf _ a _ _, (congrArg _ (ovof_setOf_self _ a _ _)).trans hbyte,
      fun c hc => ovof_setOf_of_ne _ (fun h => hc h.2) _, fun c => setOf_ovtr _ a a _ c _⟩
  case scaleRecall =>
    refine ⟨mod12 v, mod12_val v, ?_⟩
    rw [← setAuxlast_cfg a q s, ← setAuxlast_ov a q s, ← setAuxlast_bank a q s]
    rfl
  case off => rfl

/-! ### The example of R191 -/

/-- What an invocation of input 0 in rotate mode leaves when its value changes to `q`, centred to `v`
(43_aux_processor.md R186). -/
theorem auxProc_in0_rotate {raw : BitVec 10} {s t : State} {q : Note} {v : Int} (ht : t = auxProc .in0 raw s)
    (hm : s.cfg.auxm0 = .rotate) (hq : qSemi (auxHyst s.params s.auxlast0 raw) = some q) (hne : q ≠ s.auxlast0)
    (hv : v = (q.toNat : Int) - s.params.auxCenter) :
    t.params = s.params ∧ t.cfg = s.cfg ∧ t.auxlast0 = q ∧ t.ov.arot = BitVec.ofNat 4 (mod12 v).val ∧
      t.rscale = rot s.cfg.scale s.cfg.brot (BitVec.ofNat 4 (mod12 v).val) := by
  rw [ht, auxProc_of_effect (a := .in0) hq hne hv hm (by simp)]
  exact ⟨rfl, rfl, rfl, rfl, rfl⟩

/-- Settles O50: the first two invocations change the value, and the third finds it unchanged. -/
theorem auxRotateExample : Obligations.AuxRotateExample := by
  intro s hp hm hlast hscale hbrot
  obtain ⟨hfirst, hsecond, hthird, hcenter⟩ : auxHyst s.params 0 507 = 504 ∧ auxHyst s.params 63 400 = 402 ∧
      auxHyst s.params 50 400 = 400 ∧ s.params.auxCenter = 60 := by rw [hp]; decide
  have hup : qSemi 504 = some 63 := by decide
  have hdown : qSemi 402 = some 50 := by decide
  have hsame : qSemi 400 = some 50 := by decide
  obtain ⟨t, ht⟩ : ∃ t, t = auxProc .in0 507 s := ⟨_, rfl⟩
  obtain ⟨u, hu⟩ : ∃ u, u = auxProc .in0 400 t := ⟨_, rfl⟩
  obtain ⟨htp, htc, htl, hta, htr⟩ := auxProc_in0_rotate (q := 63) (v := 3) ht hm
    (by rw [hlast, ← hup, ← hfirst]; rfl) (by rw [hlast]; decide) (by rw [hcenter]; rfl)
  obtain ⟨huparams, huc, hul, hua, hur⟩ := auxProc_in0_rotate (q := 50) (v := -10) hu (by rw [htc, hm])
    (by rw [htp, htl, hsecond, hdown]) (by rw [htl]; decide) (by rw [htp, hcenter]; rfl)
  rw [hscale, hbrot] at htr
  rw [htc, hscale, hbrot] at hur
  refine ⟨hfirst, hup, by omega, hsecond, hdown, by omega, hthird, hsame, t, u, ht, hu, htl, hta, htr, hul, hua, hur, ?_⟩
  have hkept : qSemi (auxHyst u.params (u.auxlast .in0) 400) = some (u.auxlast .in0) := by
    rw [State.auxlast, huparams, htp, hul, hthird, hsame]
  have hmode : u.auxm .in0 ≠ .gateLength := by simp [State.auxm, huc, htc, hm]
  exact (auxProc_of_same (.inr hkept)).trans (auxMapped_of_ne hmode)

end Sys2Proof.Machine
end

section
/-! The Gate-Length Calculator (44_gate_length.md): what `GateLen` is below, above and inside the table, how it depends on
the remainder, and the next state of `SETGLI`. -/

namespace Sys2Proof.Machine

/-! ### `GateLen` on the three ranges of the index -/

section
variable {p : Params} {gli gr : Nat} {gi : Int}

/-- An index is below the table's interpolated part, above it, or one of 0 to 10 (44_gate_length.md R200). -/
theorem gateIndex_cases (i : Int) : i < 0 ∨ 11 ≤ i ∨ ∃ n : Nat, n ≤ 10 ∧ i = n := by
  by_cases hlow : i < 0
  · exact .inl hlow
  · by_cases hhigh : 11 ≤ i
    · exact .inr (.inl hhigh)
    · exact .inr (.inr ⟨i.toNat, by omega, by omega⟩)

theorem gateLen_of_neg (h : (gli : Int) + gi < 0) : gateLen p gli gi gr = p.gateAt 0 := if_pos h

theorem gateLen_of_ge (h : 11 ≤ (gli : Int) + gi) : gateLen p gli gi gr = p.gateAt 11 :=
  (if_neg (by omega)).trans (if_pos h)

theorem gateLen_of_index {i : Nat} (hi : i ≤ 10) (h : (gli : Int) + gi = i) :
    gateLen p gli gi gr = p.gateAt i + ((gr : Int) * ((p.gateAt (i + 1) : Int) - p.gateAt i)) / 39 := by
  unfold gateLen
  dsimp only
  rw [h, if_neg (by omega), if_neg (by omega), Int.toNat_natCast]

/-! ### The dependence on the remainder -/

theorem gateLen_zero_remainder {i : Nat} (hi : i ≤ 10) (h : (gli : Int) + gi = i) :
    gateLen p gli gi 0 = p.gateAt i := by
  rw [gateLen_of_index hi h]
  simp

/-- The divisor is 39, so that the last remainder reaches the next entry (44_gate_length.md R200). -/
theorem gateLen_last_remainder {i : Nat} (hi : i ≤ 10) (h : (gli : Int) + gi = i) :
    gateLen p gli gi 39 = p.gateAt (i + 1) := by
  rw [gateLen_of_index hi h]
  omega

/-- Where the table does not fall, a larger remainder gives no smaller gate length; outside the interpolated part the
remainder is ignored. -/
theorem gateLen_mono_remainder (hp : p.valid = true) {r : Nat} (hr : r ≤ gr) :
    gateLen p gli gi r ≤ gateLen p gli gi gr := by
  rcases gateIndex_cases (gli + gi) with hneg | hge | ⟨i, hi, h⟩
  · rw [gateLen_of_neg hneg, gateLen_of_neg hneg]
  · rw [gateLen_of_ge hge, gateLen_of_ge hge]
  · rw [gateLen_of_index hi h, gateLen_of_index hi h]
    have hstep : 0 ≤ (p.gateAt (i + 1) : Int) - p.gateAt i := by
      have hmono := (Params.valid_iff.mp hp).gateMono i (by omega)
      omega
    exact Int.add_le_add_left
      (Int.ediv_le_ediv (by decide) (mul_le_mul_of_nonneg_right (Int.ofNat_le.mpr hr) hstep)) _

/-- The interpolated length lies between the two table entries: they are its values at the remainders 0 and 39. -/
theorem gateLen_between (hp : p.valid = true) (hr : gr ≤ 39) {i : Nat} (hi : i ≤ 10) (h : (gli : Int) + gi = i) :
    (p.gateAt i : Int) ≤ gateLen p gli gi gr ∧ gateLen p gli gi gr ≤ p.gateAt (i + 1) :=
  ⟨(gateLen_zero_remainder hi h).symm.trans_le (gateLen_mono_remainder hp (Nat.zero_le gr)),
    (gateLen_mono_remainder hp hr).trans_eq (gateLen_last_remainder hi h)⟩

end

/-! ### `SETGLI` -/

theorem exec_setgli (s : State) {i : BitVec 4} (hi : i.toNat < 12) :
    exec (.setgli i) s = .next (answer 0 (markEdit (recomputeGate { s with cfg := { s.cfg with gli := i } }))) := by
  simp only [exec, execSetgli, index12_of_lt hi]

/-! ### The obligations -/

/-- Settles O15: the next state is `recomputeGate`'s on the new index, and a gate length fits its register. -/
theorem setgliRecomputesGateLength : Obligations.SetgliRecomputesGateLength := fun s _ hp hr hi =>
  ⟨_, exec_setgli s (Nat.lt_succ_of_le hi), rfl, (toNat_ofInt_gateLen hp hr).1⟩

/-- Settles O36, range by range of the index; the bounds follow from monotony and the two exact ends. -/
theorem gateLengthInterpolates : Obligations.GateLengthInterpolates := fun _ _ _ _ hp _ hr =>
  ⟨gateLen_of_neg, gateLen_of_ge,
    fun _ hi h => ⟨gateLen_zero_remainder hi h, gateLen_last_remainder hi h, gateLen_of_index hi h,
      gateLen_between hp hr hi h⟩,
    fun _ => gateLen_mono_remainder hp⟩

/-- Settles O37: each value by the range its index falls in, and the entries of REF's table. -/
theorem gateLengthExamples : Obligations.GateLengthExamples :=
  ⟨gateLen_of_index (i := 0) (by decide) rfl, by decide, gateLen_zero_remainder (i := 0) (by decide) rfl,
    gateLen_last_remainder (i := 0) (by decide) rfl, gateLen_of_neg (by decide), gateLen_of_ge (by decide),
    gateLen_of_index (i := 10) (by decide) rfl, by decide, gateLen_of_ge (by decide)⟩

end Sys2Proof.Machine
end

section
/-! The sampling sequencer (45_sampling_sequencer.md): what the two events latch, and the one invocation of a dispatch. -/

namespace Sys2Proof.Machine

/-! ### The events -/

/-- A sample word put together from its fields has those fields, since the decoder reads them back (30_encoding.md R82). -/
theorem sampleWord_reads (t1 t0 : Bool) (raw : BitVec 10) :
    (sampleWord t1 t0 raw).extractLsb' 0 10 = raw ∧ (sampleWord t1 t0 raw).getLsbD 10 = t0 ∧
      (sampleWord t1 t0 raw).getLsbD 11 = t1 := by
  obtain ⟨ht1, ht0, hraw⟩ := Instr.adcdone.inj (decodeSample_append t1 t0 raw)
  exact ⟨hraw, ht0, ht1⟩

theorem latchSample_of_started {s : State} (h : s.ien = true) (a : BitVec 12) :
    latchSample a s = { s with overrun := s.overrun || s.pends, sdata := a, pends := true } := if_pos h

theorem latchSample_of_notStarted {s : State} (h : s.ien = false) (a : BitVec 12) : latchSample a s = s := by
  simp [latchSample, h]

theorem latchTick_of_started {s : State} (h : s.ien = true) : latchTick s = { s with pendh := true } := if_pos h

theorem latchTick_of_notStarted {s : State} (h : s.ien = false) : latchTick s = s := by
  simp [latchTick, h]

theorem exec_adcdone (t1 t0 : Bool) (raw : BitVec 10) (s : State) :
    exec (.adcdone t1 t0 raw) s = .next (latchSample (sampleWord t1 t0 raw) s) := rfl

theorem exec_hktick (s : State) : exec .hktick s = .next (latchTick s) := rfl

/-! ### The dispatch `SDISP` -/

@[simp] theorem consumeQuiet_sdata (s : State) : s.consumeQuiet.sdata = s.sdata := by rw [consumeQuiet_eq]

/-- A pending sample goes before everything but what the environment does at this point (60_exceptions.md R252). -/
theorem nextAction_of_pends {s : State} (hq : NoEventNow s) (hp : s.pends = true) : nextAction s = .sdisp := by
  obtain ⟨hadc, htick, hstorage, hreset⟩ := hq
  have hown (o : Action) : ownAction s o = .sdisp := if_pos hp
  unfold nextAction
  split
  case h_1 hin => exact absurd hin (hstorage _ _)
  case h_2 hin => exact absurd hin (hreset _)
  case h_3 hin => exact absurd hin (hadc _ _)
  case h_4 hin => exact absurd hin (htick _)
  all_goals exact hown _

/-- With a sample pending the step is the dispatch of it. -/
theorem step_of_pends {s : State} (hq : NoEventNow s) (hp : s.pends = true) :
    step s = .next (serveSample s.consumeQuiet) := by
  rw [step, nextAction_of_pends hq hp, perform]

/-- The state in which the served input is invoked: the sample taken, the multiplexer at the next input, and the strobes of
the last operation released (45_sampling_sequencer.md R211). -/
def dispatched (s : State) : State :=
  { s.consumeQuiet with pends := false, nextch := s.nextch + 1, ports := Ports.idle }

/-- The dispatch as a step: the one invocation of the input that `NEXTCH` names (45_sampling_sequencer.md R211). -/
theorem step_invokes_served {s : State} {i : Served} (hq : NoEventNow s) (hp : s.pends = true) (hi : served s.nextch = i) :
    step s = .next (invoke i s.sdata (dispatched s)) := by
  rw [step_of_pends hq hp, serveSample, dispatched, consumeQuiet_nextch, consumeQuiet_sdata, hi]

/-! ### The obligations -/

/-- Settles O25: at each value of `NEXTCH` the input served, and `invoke` at that input. -/
theorem sdispServesOneInput : Obligations.SdispServesOneInput := by
  intro s hq hp
  have invokes {n : BitVec 2} {i : Served} (hi : served n = i) (hn : s.nextch = n) :
      step s = .next (invoke i s.sdata (dispatched s)) := step_invokes_served hq hp (hn ▸ hi)
  exact ⟨dispatched s, rfl, invokes (i := .channel .ch0) rfl, invokes (i := .channel .ch1) rfl,
    invokes (i := .auxiliary .in0) rfl, invokes (i := .auxiliary .in1) rfl⟩

/-- Settles O23, event by event, after and before `START`. -/
theorem eventsLatch : Obligations.EventsLatch := by
  intro s t1 t0 raw
  refine ⟨fun hi => ?_, fun hi => ?_, fun hi => ⟨?_, ?_⟩⟩
  · exact ⟨_, exec_adcdone t1 t0 raw s, by rw [latchSample_of_started hi], by
      rw [latchSample_of_started hi]; exact sampleWord_reads t1 t0 raw⟩
  · rw [exec_hktick, latchTick_of_started hi]
  · rw [exec_adcdone, latchSample_of_notStarted hi]
  · rw [exec_hktick, latchTick_of_notStarted hi]

end Sys2Proof.Machine
end

section
/-! The system operations (46_system_ops.md): the command words that are no edit, `CFGDEF`, the entry of the housekeeping
level, and the save delay. -/

namespace Sys2Proof.Machine

/-! ### The command words -/

theorem exec_kbdnote (o : BitVec 4) {n : BitVec 4} (hn : n.toNat < 12) (s : State) :
    exec (.kbdnote o n) s =
      .next (answer 0 { s with kbdnote := kbdNoteOf o n, kbdtrig0 := true, kbdtrig1 := true }) := by
  simp only [exec, execKbdnote, index12_of_lt hn]

theorem exec_hret_of_hact {s : State} (h : s.hact = true) : exec .hret s = .next (answer 0 (leaveHousekeeping s)) :=
  if_pos h

theorem exec_hret_of_background {s : State} (h : s.hact = false) : exec .hret s = .refused .level := if_neg (by simp [h])

theorem exec_commit_of_hact {s : State} (h : s.hact = true) : exec .commit s = .refused .level := if_pos h

/-- At the background level `COMMIT` goes by whether it is due (46_system_ops.md R229). -/
theorem exec_commit_of_background {s : State} (h : s.hact = false) :
    exec .commit s = if commitReady s then
      .next { s with savepend := false, ports := { Ports.idle with rsp := some ⟨0, 0⟩, cfgSave := some s.cfg } }
      else .next (answer 0 s) := if_neg (by simp [h])

theorem exec_cfgdef (s : State) :
    exec .cfgdef s = .next
      (answer 0 { loadDefaults (releaseAux .in1 (releaseAux .in0 s)) with savetmr := 0, savepend := true }) := rfl

theorem exec_rdreg (addr : BitVec 8) (s : State) : exec (.rdreg addr) s = .next (answer (regRead s addr) s) := rfl

/-! ### The release of both inputs -/

/-- What the release of both inputs does in any state: a shared register is taken back if either old mode contributed to it
(46_system_ops.md R228). -/
theorem releaseAux_both_eq (s : State) :
    releaseAux .in1 (releaseAux .in0 s) = { s with ov := { (s.ov.clearInput .in0).clearInput .in1 with
      arot := if s.auxm .in0 = .rotate ∨ s.auxm .in1 = .rotate then 0 else s.ov.arot,
      gi := if s.auxm .in0 = .gateLength ∨ s.auxm .in1 = .gateLength then 0 else s.ov.gi,
      gr := if s.auxm .in0 = .gateLength ∨ s.auxm .in1 = .gateLength then 0 else s.ov.gr } } := by
  have hmode : (releaseAux .in0 s).auxm .in1 = s.auxm .in1 := by rw [releaseAux_eq]; rfl
  rw [releaseAux_eq .in1, hmode, releaseAux_eq .in0]
  simp only [Overlay.clearInput, Overlay.setTr, Overlay.setOf, State.mk.injEq, Overlay.mk.injEq, and_true, true_and]
  refine ⟨?arot, ?gi, ?gr⟩
  all_goals exact (ite_or _ _ _ _).symm.trans (if_congr or_comm rfl rfl)

theorem clearInput_both_contributions (o : Overlay) (a : Aux) (c : Chan) :
    ((o.clearInput .in0).clearInput .in1).ovtr a c = 0#8 ∧ ((o.clearInput .in0).clearInput .in1).ovof a c = 0#8 := by
  cases a <;> simp [clearInput_ovtr, clearInput_ovof]

/-- The gate length of a neutral overlay is a table entry, which fits the register (44_gate_length.md R200). -/
theorem toNat_gateLen_neutral {p : Params} (hp : p.valid = true) {gli : Nat} (h : gli ≤ 11) :
    (BitVec.ofInt 16 (gateLen p gli 0 0)).toNat = p.gateAt gli := by
  have hfit := (toNat_ofInt_gateLen hp (gli := gli) (gi := 0) (gr := 0) (Nat.zero_le _)).1
  rw [gateLen_neutral p h] at hfit ⊢
  exact_mod_cast hfit

/-! ### The entry of the housekeeping level -/

/-- Where the environment does nothing, the block chooses (60_exceptions.md R252). -/
theorem NoEventNow.nextAction_eq {s : State} (hq : NoEventNow s) : ∃ otherwise, nextAction s = ownAction s otherwise := by
  obtain ⟨hadc, htick, hstorage, hreset⟩ := hq
  unfold nextAction
  split
  case h_1 hin => exact absurd hin (hstorage _ _)
  case h_2 hin => exact absurd hin (hreset _)
  case h_3 hin => exact absurd hin (hadc _ _)
  case h_4 hin => exact absurd hin (htick _)
  all_goals exact ⟨_, rfl⟩

theorem ownAction_of_hdispEnabled {s : State} (h : hdispEnabled s = true) (otherwise : Action) :
    ownAction s otherwise = .hdisp := by
  obtain ⟨-, -, -, hpends⟩ := hdispEnabled_iff.mp h
  simp [ownAction, hpends, h]

/-- With `HDISP` enabled the step is the entry of the housekeeping level (46_system_ops.md R224). -/
theorem step_of_hdispEnabled {s : State} (hq : NoEventNow s) (h : hdispEnabled s = true) :
    step s = .next (enterHousekeeping s.consumeQuiet) := by
  obtain ⟨otherwise, hnext⟩ := hq.nextAction_eq
  rw [step, hnext, ownAction_of_hdispEnabled h, perform]

@[simp] theorem consumeQuiet_savetmr (s : State) : s.consumeQuiet.savetmr = s.savetmr := by rw [consumeQuiet_eq]

/-! ### The save delay -/

/-- A run of housekeeping rounds counts the save timer down to 0 and leaves the request and the level `storage_busy`
(46_system_ops.md R224, R225). -/
theorem housekeepingRounds_counts (n : Nat) (s : State) :
    (housekeepingRounds n s).savetmr.toNat = s.savetmr.toNat - n ∧
      (housekeepingRounds n s).savepend = s.savepend ∧ (housekeepingRounds n s).storageBusy = s.storageBusy := by
  induction n generalizing s with
  | zero => exact ⟨rfl, rfl, rfl⟩
  | succ n ih =>
    obtain ⟨htmr, hpend, hbusy⟩ := ih (leaveHousekeeping (enterHousekeeping s))
    refine ⟨?_, hpend, hbusy⟩
    rw [housekeepingRounds, htmr, leaveHousekeeping_savetmr, enterHousekeeping_savetmr_toNat]
    omega

/-- The save delay fits its register (00_scope.md R8, 10_state.md R45). -/
theorem toNat_markEdit_savetmr {s : State} (hp : s.params.valid = true) :
    (markEdit s).savetmr.toNat = s.params.saveDelay := by
  have hfit := (Params.valid_iff.mp hp).saveDelay
  rw [markEdit_savetmr, BitVec.toNat_ofNat]
  omega

/-! ### The obligations -/

/-- Settles O20: the overlay is the one `releaseAux_both_eq` gives, or the neutral one in a sound state, and both derived
registers follow it. -/
theorem cfgdefLoadsDefaults : Obligations.CfgdefLoadsDefaults := by
  intro s
  refine ⟨_, exec_cfgdef s, ?frame, ?contributions, ?arot, ?gi, ?gr, ?rscale, ?gatelen, fun h => ?sound⟩
  case sound =>
    rw [h.releaseAux_both]
    have hlegal := (Params.valid_iff.mp h.params).defaults
    obtain ⟨-, hgli, -⟩ := Configuration.legal_iff.mp hlegal
    have hgate : (BitVec.ofInt 16 (gateLen s.params s.params.defaults.gli.toNat 0 0)).toNat =
        s.params.gateAt s.params.defaults.gli.toNat := toNat_gateLen_neutral h.params (by omega)
    refine ⟨rfl, rfl, hgate, fun hd => ?_⟩
    have hrscale : rot s.params.defaults.scale s.params.defaults.brot 0 = 0xFFF0#16 := by rw [hd]; decide
    have hentry : s.params.gateAt s.params.defaults.gli.toNat = s.params.gateAt 0 := by rw [hd]; rfl
    exact ⟨hrscale, hgate.trans hentry, congrArg Configuration.scale hd, congrArg Configuration.auxm0 hd,
      congrArg Configuration.auxm1 hd⟩
  all_goals rw [releaseAux_both_eq]
  case frame => rfl
  case contributions => exact clearInput_both_contributions s.ov
  case arot | gi | gr | rscale | gatelen => rfl

/-- Settles O58: the rounds count down from the whole save delay, and only the timer stands between the request and its
commit. -/
theorem saveDelayCountsRounds : Obligations.SaveDelayCountsRounds := by
  intro s n hp
  obtain ⟨htmr, hpend, hbusy⟩ := housekeepingRounds_counts n (markEdit s)
  rw [toNat_markEdit_savetmr hp] at htmr
  refine ⟨htmr, fun hfree => ?_⟩
  rw [commitReady_iff, hpend, hbusy, ← BitVec.toNat_inj, htmr]
  simp [hfree, Nat.sub_eq_zero_iff_le]

/-- Settles O17, command by command; `KBDNOTE` once its semitone is read. -/
theorem plainCommandsComplete : Obligations.PlainCommandsComplete := fun s =>
  ⟨rfl, rfl, rfl, rfl,
    fun o _ hn => ⟨_, exec_kbdnote o (Nat.lt_succ_of_le hn) s, rfl, toNat_kbdNoteOf (Nat.lt_succ_of_le hn)⟩, rfl, rfl⟩

/-- Settles O18, by the level. -/
theorem hretReturnsFromHousekeeping : Obligations.HretReturnsFromHousekeeping := fun _ =>
  ⟨exec_hret_of_hact, exec_hret_of_background⟩

/-- Settles O19: at the background level by whether the commit is due, which `commitReady_iff` takes apart. -/
theorem commitSavesWhenDue : Obligations.CommitSavesWhenDue := by
  intro s
  refine ⟨fun hb hpend htmr hfree => ?due, fun hb hidle => ?idle, exec_commit_of_hact⟩
  case due =>
    rw [exec_commit_of_background hb, if_pos (commitReady_iff.mpr ⟨hpend, htmr, hfree⟩)]
    rfl
  case idle =>
    rw [exec_commit_of_background hb, if_neg (fun hready => hidle (commitReady_iff.mp hready))]
    rfl

/-- Settles O21: the answer is the register read, and `answer` moves the ports alone. -/
theorem rdregHasNoSideEffect : Obligations.RdregHasNoSideEffect := fun s addr => exec_rdreg addr s

/-- Settles O26: `HDISP` is enabled, and its timer counts down to 0. -/
theorem hdispEntersHousekeeping : Obligations.HdispEntersHousekeeping := by
  intro s hq hien hpendh hhact hpends
  refine ⟨_, step_of_hdispEnabled hq (hdispEnabled_iff.mpr ⟨hien, hpendh, hhact, hpends⟩), rfl, ?_, rfl⟩
  rw [enterHousekeeping_savetmr_toNat, consumeQuiet_savetmr]

end Sys2Proof.Machine
end

section
/-! The Scheduler (60_exceptions.md): which step comes next, who moves its flags, and where a step refuses. -/

namespace Sys2Proof.Machine

/-! ### The next step (60_exceptions.md R252) -/

theorem dispatchEnabled_eq_false_iff {s : State} :
    dispatchEnabled s = false ↔ s.pends = false ∧ ¬(s.ien = true ∧ s.pendh = true ∧ s.hact = false) := by
  rw [dispatchEnabled, Bool.or_eq_false_iff, ← Bool.not_eq_true (hdispEnabled s), hdispEnabled_iff]
  exact and_congr_right fun hp => by simp [hp]

section
variable {s : State} {p : PortWord} {w : BitVec 24} {rest : List Input}

theorem runWord_of_decode {i : Instr} (h : decode p = .ok i) (s : State) : runWord p s = exec i s := by
  simp [runWord, h]

/-- The word that the environment presents next is run on the state with the word taken, a command word only where no
dispatch goes before it. -/
theorem step_of_word (hin : s.input = inputOf p :: rest) (hd : (∃ w, p = .cmd w) → dispatchEnabled s = false) :
    step s = runWord p { s with input := rest } := by
  have htake : s.consume = { s with input := rest } := by rw [State.consume, hin]; rfl
  rw [← htake, step]
  cases p with
  | cmd w => rw [nextAction_command hin (hd ⟨w, rfl⟩), perform]
  | adc a | tick => simp [nextAction, hin, inputOf, perform]

theorem step_of_command (hin : s.input = .cmd w :: rest) (hd : dispatchEnabled s = false) :
    step s = runWord (.cmd w) { s with input := rest } := step_of_word hin fun _ => hd

/-- Where the environment does nothing it has nothing to present, or marks a quiet point, or holds a command word. -/
theorem NoEventNow.input_cases (hq : NoEventNow s) :
    s.input = [] ∨ (∃ rest, s.input = .quiet :: rest) ∨ ∃ w rest, s.input = .cmd w :: rest := by
  obtain ⟨hadc, htick, hstorage, hreset⟩ := hq
  cases hin : s.input with
  | nil => exact .inl rfl
  | cons x rest =>
    cases x with
    | cmd w => exact .inr (.inr ⟨w, rest, rfl⟩)
    | quiet => exact .inr (.inl ⟨rest, rfl⟩)
    | adc a => exact absurd hin (hadc a rest)
    | tick => exact absurd hin (htick rest)
    | storage b => exact absurd hin (hstorage b rest)
    | reset => exact absurd hin (hreset rest)

theorem ownAction_of_disabled (hd : dispatchEnabled s = false) (otherwise : Action) :
    ownAction s otherwise = otherwise := by
  obtain ⟨hpends, hhdisp⟩ := Bool.or_eq_false_iff.mp hd
  simp [ownAction, hpends, hhdisp]

/-- With no dispatch enabled and no command word presented the step does nothing. -/
theorem step_of_nothing (hq : NoEventNow s) (hd : dispatchEnabled s = false)
    (hcmd : ∀ w rest, s.input ≠ .cmd w :: rest) : step s = .next s.consumeQuiet := by
  have hwait : nextAction s = .wait := by
    rcases hq.input_cases with hin | ⟨rest, hin⟩ | ⟨w, rest, hin⟩
    · simp only [nextAction, hin, ownAction_of_disabled hd]
    · simp only [nextAction, hin, ownAction_of_disabled hd]
    · exact absurd hin (hcmd w rest)
  rw [step, hwait, perform]

theorem consumeQuiet_of_cmd (hin : s.input = .cmd w :: rest) : s.consumeQuiet = s := by
  simp only [State.consumeQuiet, hin]

theorem consumeQuiet_of_quiet (hin : s.input = .quiet :: rest) : s.consumeQuiet = { s with input := rest } := by
  simp only [State.consumeQuiet, hin]

end

/-! ### The events (60_exceptions.md R246, R249, R254) -/

theorem runWord_adc (a : BitVec 12) (s : State) : runWord (.adc a) s = .next (latchSample a s) := by
  rw [runWord_of_decode (i := decodeSample a) rfl, decodeSample, exec_adcdone, sampleWord_fields]

theorem runWord_tick (s : State) : runWord .tick s = .next (latchTick s) := rfl

section
variable (a : BitVec 12) (s : State)

@[simp] theorem latchSample_params : (latchSample a s).params = s.params := by unfold latchSample; split <;> rfl
@[simp] theorem latchSample_ien : (latchSample a s).ien = s.ien := by unfold latchSample; split <;> rfl
@[simp] theorem latchSample_pends : (latchSample a s).pends = (s.ien || s.pends) := by
  cases h : s.ien <;> simp [latchSample, h]
@[simp] theorem latchSample_pendh : (latchSample a s).pendh = s.pendh := by unfold latchSample; split <;> rfl
@[simp] theorem latchSample_hact : (latchSample a s).hact = s.hact := by unfold latchSample; split <;> rfl
@[simp] theorem latchSample_input : (latchSample a s).input = s.input := by unfold latchSample; split <;> rfl

@[simp] theorem latchTick_params : (latchTick s).params = s.params := by unfold latchTick; split <;> rfl
@[simp] theorem latchTick_ien : (latchTick s).ien = s.ien := by unfold latchTick; split <;> rfl
@[simp] theorem latchTick_pends : (latchTick s).pends = s.pends := by unfold latchTick; split <;> rfl
@[simp] theorem latchTick_pendh : (latchTick s).pendh = (s.ien || s.pendh) := by
  cases h : s.ien <;> simp [latchTick, h]
@[simp] theorem latchTick_hact : (latchTick s).hact = s.hact := by unfold latchTick; split <;> rfl
@[simp] theorem latchTick_input : (latchTick s).input = s.input := by unfold latchTick; split <;> rfl

/-! ### The block's own steps -/

@[simp] theorem consumeQuiet_params : s.consumeQuiet.params = s.params := by rw [consumeQuiet_eq]
@[simp] theorem consumeQuiet_ien : s.consumeQuiet.ien = s.ien := by rw [consumeQuiet_eq]
@[simp] theorem consumeQuiet_pends : s.consumeQuiet.pends = s.pends := by rw [consumeQuiet_eq]
@[simp] theorem consumeQuiet_pendh : s.consumeQuiet.pendh = s.pendh := by rw [consumeQuiet_eq]
@[simp] theorem consumeQuiet_hact : s.consumeQuiet.hact = s.hact := by rw [consumeQuiet_eq]

theorem consumeQuiet_input : s.consumeQuiet.input = s.input ∨ s.consumeQuiet.input = s.input.tail := by
  unfold State.consumeQuiet
  split
  · next h => exact .inr (by rw [h]; rfl)
  · exact .inl rfl

/-- A dispatch of a sample takes it, and leaves the other flags, the parameters and the environment's stream. -/
@[simp] theorem serveSample_frame :
    (serveSample s).pends = false ∧ (serveSample s).ien = s.ien ∧ (serveSample s).pendh = s.pendh ∧
      (serveSample s).hact = s.hact ∧ (serveSample s).params = s.params ∧ (serveSample s).input = s.input := by
  cases h : served s.nextch with
  | channel c => obtain ⟨_, _, _, _, e⟩ := serveSample_channel h; simp [e]
  | auxiliary a => obtain ⟨_, _, _, _, _, e, -⟩ := serveSample_auxiliary h; simp [e]

end

/-! ### The command words -/

section
variable {s t : State} {i : Instr} {w : BitVec 24}

theorem Completes.params (h : Completes s i t) : t.params = s.params := by
  cases h <;> simp [saveBank, loadDefaults, releaseAux_eq]

theorem Completes.input (h : Completes s i t) : t.input = s.input := by
  cases h <;> simp [saveBank, loadDefaults, releaseAux_eq]

theorem Completes.pends (h : Completes s i t) : t.pends = s.pends := by
  cases h <;> simp [saveBank, loadDefaults, releaseAux_eq]

theorem Completes.pendh (h : Completes s i t) : t.pendh = s.pendh := by
  cases h <;> simp [saveBank, loadDefaults, releaseAux_eq]

/-- Of the command words only `START` moves `IEN`, and it sets it (46_system_ops.md R221). -/
theorem Completes.ien (h : Completes s i t) : t.ien = s.ien ∨ i = .start ∧ t.ien = true := by
  cases h with
  | start => exact .inr ⟨rfl, rfl⟩
  | nop | toggle | recallBank | savebank | setscale | setgli | setrot | settrg | settrc | setofg | setofc | setleg | setqm
  | settds | setauxm | kbdoff | kbdon | kbdnote | trigedge | hret | commitSaved | commitIdle | cfgdef | rdreg =>
    exact .inl (by simp [saveBank, loadDefaults, releaseAux_eq])

/-- Of the command words only `HRET` moves `HACT`, and it clears it (46_system_ops.md R225). -/
theorem Completes.hact (h : Completes s i t) : t.hact = s.hact ∨ i = .hret ∧ t.hact = false := by
  cases h with
  | hret => exact .inr ⟨rfl, rfl⟩
  | nop | toggle | recallBank | savebank | setscale | setgli | setrot | settrg | settrc | setofg | setofc | setleg | setqm
  | settds | setauxm | kbdoff | kbdon | kbdnote | trigedge | start | commitSaved | commitIdle | cfgdef | rdreg =>
    exact .inl (by simp [saveBank, loadDefaults, releaseAux_eq])

/-- The word of an instruction is the only one that decodes to it (30_encoding.md R85). -/
theorem eq_word_of_decode {v : BitVec 24} (h : decode (.cmd w) = .ok i) (he : encode i = .cmd v) : w = v :=
  PortWord.cmd.inj ((encode_of_decode_cmd h).symm.trans he)

/-- An instruction whose operand fails its check is refused by its own meaning (30_encoding.md R86). -/
theorem exec_of_not_wf (h : i.wf = false) (s : State) : exec i s = .refused .operand := by
  cases i with
  | toggle k => simp only [exec, execToggle, index12_eq_none.mpr h]
  | savebank b => simp only [exec, execSavebank, index12_eq_none.mpr h]
  | setgli g => simp only [exec, execSetgli, index12_eq_none.mpr h]
  | setrot r => simp only [exec, execSetrot, index12_eq_none.mpr h]
  | settds d => simp only [exec, execSettds, index12_eq_none.mpr h]
  | kbdnote o n => simp only [exec, execKbdnote, index12_eq_none.mpr h]
  | setqm m => simp only [exec, execSetqm, qmodeOf_eq_none.mpr h]
  | setauxm a m => simp only [exec, execSetauxm, auxModeOf_eq_none.mpr h]
  | nop | setscale | settrg | settrc | setofg | setofc | setleg | kbdoff | kbdon | trigedge | hret | commit | start | cfgdef
  | rdreg | adcdone | hktick => cases h
  | _ =>
    -- `RECALL`, whose constructor's name is a keyword where a case is named
    simp only [exec, execRecall, index12_eq_none.mpr h]

theorem exec_settds {d : BitVec 4} (hd : d.toNat < 12) (s : State) :
    exec (.settds d) s = .next (answer 0 (markEdit { s with cfg := { s.cfg with tds := d } })) := by
  simp only [exec, execSettds, index12_of_lt hd]

theorem exec_setqm (q : QMode) (s : State) :
    exec (.setqm (qmodeBits q)) s = .next (answer 0 (markEdit { s with cfg := { s.cfg with qmode := q } })) := by
  simp only [exec, execSetqm, qmodeOf_bits]

theorem exists_bank_of_below12 {b : BitVec 4} (h : below12 b = true) : ∃ k : Fin 12, b = BitVec.ofNat 4 k.val :=
  ⟨⟨b.toNat, of_decide_eq_true h⟩, by simp⟩

theorem exists_auxModeBits {m : BitVec 8} (h : legalAuxMode m = true) : ∃ mode, m = auxModeBits mode := by
  cases hm : auxModeOf m with
  | none => simp [auxModeOf_eq_none.mp hm] at h
  | some mode => exact ⟨mode, auxModeOf_eq_some hm⟩

/-- With its operands in range every instruction but the two that depend on the level completes (60_exceptions.md R256). -/
theorem exec_of_wf (h : WellFormed i) (hret : i ≠ .hret) (hcommit : i ≠ .commit) (s : State) :
    ∃ t, exec i s = .next t := by
  cases i with
  | hret => exact absurd rfl hret
  | commit => exact absurd rfl hcommit
  | toggle k => exact ⟨_, exec_toggle s (of_decide_eq_true h)⟩
  | setgli g => exact ⟨_, exec_setgli s (of_decide_eq_true h)⟩
  | setrot r => exact ⟨_, exec_setrot s (of_decide_eq_true h)⟩
  | settds d => exact ⟨_, exec_settds (of_decide_eq_true h) s⟩
  | kbdnote o n => exact ⟨_, exec_kbdnote o (of_decide_eq_true h) s⟩
  | savebank b =>
    obtain ⟨k, rfl⟩ := exists_bank_of_below12 h
    exact ⟨_, exec_savebank s k⟩
  | setqm m =>
    obtain ⟨q, rfl⟩ := legalQMode_eq.mp h
    exact ⟨_, exec_setqm q s⟩
  | setauxm a m =>
    obtain ⟨mode, rfl⟩ := exists_auxModeBits h
    exact ⟨_, exec_setauxm a mode s⟩
  | nop | setscale | settrg | settrc | setofg | setofc | setleg | kbdoff | kbdon | trigedge | start | cfgdef | rdreg
  | adcdone | hktick => exact ⟨_, rfl⟩
  | _ =>
    -- `RECALL`, whose constructor's name is a keyword where a case is named
    obtain ⟨k, rfl⟩ := exists_bank_of_below12 h
    exact ⟨_, exec_recall s k⟩

/-- `HRET` outside the handler and `COMMIT` inside it: the only wrong levels (60_exceptions.md R256). -/
def WrongLevel (i : Instr) (s : State) : Prop := i = .hret ∧ s.hact = false ∨ i = .commit ∧ s.hact = true

/-- A well-formed instruction completes, but for the two at the wrong level. -/
theorem exec_cases (h : WellFormed i) (s : State) :
    (∃ t, exec i s = .next t ∧ (i = .hret → s.hact = true) ∧ (i = .commit → s.hact = false)) ∨
      exec i s = .refused .level ∧ WrongLevel i s := by
  by_cases hret : i = .hret
  · subst hret
    cases hl : s.hact with
    | false => exact .inr ⟨exec_hret_of_background hl, .inl ⟨rfl, hl⟩⟩
    | true => exact .inl ⟨_, exec_hret_of_hact hl, fun _ => rfl, nofun⟩
  by_cases hcommit : i = .commit
  · subst hcommit
    cases hl : s.hact with
    | false =>
      refine .inl ?_
      rw [exec_commit_of_background hl]
      split <;> exact ⟨_, rfl, nofun, fun _ => rfl⟩
    | true => exact .inr ⟨exec_commit_of_hact hl, .inr ⟨rfl, hl⟩⟩
  · obtain ⟨t, ht⟩ := exec_of_wf h hret hcommit s
    exact .inl ⟨t, ht, fun e => absurd e hret, fun e => absurd e hcommit⟩

end

/-! ### What a step does to the flags (60_exceptions.md R246, R248 to R250) -/

section
variable {s t : State}

theorem Steps.ien_kept (h : Steps s t) (hs : s.ien = true) (hr : nextAction s ≠ .reset) : t.ien = true := by
  cases h with
  | reset ha => exact absurd ha hr
  | command _ _ hc =>
    rcases hc.ien with e | ⟨-, e⟩
    · exact e.trans hs
    · exact e
  | storage | sample | tick | sdisp | hdisp | wait => simpa using hs

theorem Steps.ien_set (h : Steps s t) (hs : s.ien = false) (ht : t.ien = true) : nextAction s = .command 0xA00000 := by
  cases h with
  | command ha hd hc =>
    rcases hc.ien with e | ⟨rfl, -⟩
    · simp [e, hs] at ht
    · exact eq_word_of_decode (v := 0xA00000) hd rfl ▸ ha
  | storage | reset | sample | tick | sdisp | hdisp | wait => simp [hs] at ht

theorem Steps.pends_set (h : Steps s t) (hs : s.pends = false) (ht : t.pends = true) :
    s.ien = true ∧ ∃ a, nextAction s = .event (.adc a) := by
  cases h with
  | sample ha => exact ⟨by simpa [hs] using ht, _, ha⟩
  | command _ _ hc => simp [hc.pends, hs] at ht
  | storage | reset | tick | sdisp | hdisp | wait => simp [hs] at ht

theorem Steps.pends_cleared (h : Steps s t) (hs : s.pends = true) (ht : t.pends = false) (hr : nextAction s ≠ .reset) :
    nextAction s = .sdisp := by
  cases h with
  | sdisp ha => exact ha
  | reset ha => exact absurd ha hr
  | command _ _ hc => simp [hc.pends, hs] at ht
  | storage | sample | tick | hdisp | wait => simp [hs] at ht

theorem Steps.pendh_set (h : Steps s t) (hs : s.pendh = false) (ht : t.pendh = true) :
    s.ien = true ∧ nextAction s = .event .tick := by
  cases h with
  | tick ha => exact ⟨by simpa [hs] using ht, ha⟩
  | command _ _ hc => simp [hc.pendh, hs] at ht
  | storage | reset | sample | sdisp | hdisp | wait => simp [hs] at ht

theorem Steps.pendh_cleared (h : Steps s t) (hs : s.pendh = true) (ht : t.pendh = false) (hr : nextAction s ≠ .reset) :
    nextAction s = .hdisp := by
  cases h with
  | hdisp ha => exact ha
  | reset ha => exact absurd ha hr
  | command _ _ hc => simp [hc.pendh, hs] at ht
  | storage | sample | tick | sdisp | wait => simp [hs] at ht

theorem Steps.hact_set (h : Steps s t) (hs : s.hact = false) (ht : t.hact = true) : nextAction s = .hdisp := by
  cases h with
  | hdisp ha => exact ha
  | command _ _ hc => rcases hc.hact with e | ⟨-, e⟩ <;> simp [e, hs] at ht
  | storage | reset | sample | tick | sdisp | wait => simp [hs] at ht

theorem Steps.hact_cleared (h : Steps s t) (hs : s.hact = true) (ht : t.hact = false) (hr : nextAction s ≠ .reset) :
    nextAction s = .command 0x800000 := by
  cases h with
  | command ha hd hc =>
    rcases hc.hact with e | ⟨rfl, -⟩
    · simp [e, hs] at ht
    · exact eq_word_of_decode (v := 0x800000) hd rfl ▸ ha
  | reset ha => exact absurd ha hr
  | storage | sample | tick | sdisp | hdisp | wait => simp [hs] at ht

/-! ### The model's own fields, and the refusals (60_exceptions.md R243) -/

theorem Steps.params (h : Steps s t) : t.params = s.params := by
  cases h with
  | command _ _ hc => exact hc.params
  | storage | reset | sample | tick | sdisp | hdisp | wait => simp

/-- A step uses up at most the first item of the environment's stream. -/
theorem Steps.input (h : Steps s t) : t.input = s.input ∨ t.input = s.input.tail := by
  cases h with
  | command _ _ hc => exact .inr hc.input
  | storage | reset | sample | tick => exact .inr (by simp)
  | sdisp | hdisp | wait => simpa using consumeQuiet_input s

theorem afterRefusal_eq_tail {r : Refusal} {code : BitVec 2} (hr : refusalCode r = some code) (s : State) :
    afterRefusal r s = { s with input := s.input.tail, ports := Ports.answered code 0 } := afterRefusal_of_code hr s

/-- A step that takes no command word is done: events and dispatches are never refused. -/
theorem step_of_no_command (h : ∀ w, nextAction s ≠ .command w) : ∃ t, step s = .next t := by
  rw [step]
  cases ha : nextAction s with
  | command w => exact absurd ha (h w)
  | event w =>
    rcases nextAction_event ha with ⟨a, rfl⟩ | rfl
    · exact ⟨_, runWord_adc a s.consume⟩
    · exact ⟨_, runWord_tick s.consume⟩
  | storage | reset | sdisp | hdisp | wait => exact ⟨_, rfl⟩

end

/-! ### The obligations -/

/-- Settles O7: a word that decodes is run by `exec`, and `LEVEL` is code 3. -/
theorem stepRunsDecodedWord : Obligations.StepRunsDecodedWord := by
  intro s p rest i hin hd hdec
  refine ⟨(step_of_word hin hd).trans (runWord_of_decode hdec _), fun _ => ?_⟩
  rw [afterRefusal_eq_tail rfl, hin, List.tail_cons]

/-- Settles O24, by whether the operands pass their checks. -/
theorem wellFormedInstructionsComplete : Obligations.WellFormedInstructionsComplete := fun _ s =>
  ⟨fun h hret hcommit => exec_of_wf h hret hcommit s, fun h => exec_of_not_wf (Bool.eq_false_of_not_eq_true h) s⟩

/-- Settles O8: the block's own choice where no event arrives, in the order of its three cases. -/
theorem schedulingPriority : Obligations.SchedulingPriority := by
  intro s hq
  refine ⟨step_of_pends hq, fun hpends hien hpendh hhact => ?_, fun hpends hidle => ?_, fun _ _ => consumeQuiet_of_cmd,
    fun _ => consumeQuiet_of_quiet⟩
  · exact step_of_hdispEnabled hq (hdispEnabled_iff.mpr ⟨hien, hpendh, hhact, hpends⟩)
  · have hd : dispatchEnabled s = false := dispatchEnabled_eq_false_iff.mpr ⟨hpends, hidle⟩
    exact ⟨fun _ _ hin => step_of_command hin hd, step_of_nothing hq hd⟩

/-- Settles O9: with `IEN` clear neither event is latched, and with nothing pending no dispatch is enabled. -/
theorem eventsIgnoredBeforeStart : Obligations.EventsIgnoredBeforeStart := by
  intro s hien
  refine ⟨fun a rest hin => ?sample, fun rest hin => ?tick, fun hquiet => ?command⟩
  case sample =>
    rw [step_of_word (p := .adc a) hin nofun, runWord_adc, latchSample_of_notStarted (s := { s with input := rest }) hien]
  case tick =>
    rw [step_of_word (p := .tick) hin nofun, runWord_tick, latchTick_of_notStarted (s := { s with input := rest }) hien]
  case command =>
    obtain ⟨hpends, -, hhact⟩ := hquiet hien
    have hd : dispatchEnabled s = false := dispatchEnabled_eq_false_iff.mpr ⟨hpends, by simp [hien]⟩
    exact ⟨by simp [commandLevel, hhact], fun _ _ hin => step_of_command hin hd⟩

/-- Settles O54, flag by flag, each by the cases of a step. -/
theorem schedulerFlagRules : Obligations.SchedulerFlagRules := by
  intro s t hstep
  have h : Steps s t := steps_of_step hstep
  refine ⟨h.ien_kept, h.ien_set, h.pends_set, h.pends_cleared, h.pendh_set, h.pendh_cleared, h.hact_set, h.hact_cleared,
    fun ha => ?_⟩
  obtain ⟨hien, hpendh, hhact, hpends⟩ := hdispEnabled_iff.mp (nextAction_hdisp ha)
  exact ⟨hhact, hpends, hpendh, hien⟩

/-- Settles O10: a step that takes no command word is done; one that does goes by what the decoder answers, and then by the
level. -/
theorem everyStepIsDoneOrRefused : Obligations.EveryStepIsDoneOrRefused := by
  intro s
  by_cases hcmd : ∃ w, nextAction s = .command w
  · obtain ⟨w, ha⟩ := hcmd
    have hstep : step s = runWord (.cmd w) s.consume := by rw [step, ha, perform]
    cases hd : decode (.cmd w) with
    | error e =>
      have href : step s = .refused (refusalOf e) := by rw [hstep, runWord, hd]
      cases e with
      | illegal => exact .inr ⟨w, _, 1, ha, href, afterRefusal_eq_tail rfl s, .inl ⟨hd, rfl, rfl⟩⟩
      | operand => exact .inr ⟨w, _, 2, ha, href, afterRefusal_eq_tail rfl s, .inr (.inl ⟨hd, rfl, rfl⟩)⟩
    | ok i =>
      rw [runWord_of_decode hd] at hstep
      rcases exec_cases (decode_cmd_eq_ok_iff.mp hd).2 s.consume with ⟨t, hexec, hlevel⟩ | ⟨hexec, hwrong⟩
      · have hnext : step s = .next t := hstep.trans hexec
        refine .inl ⟨t, hnext, (steps_of_step hnext).params, (steps_of_step hnext).input, fun v hv => ?_⟩
        obtain rfl : w = v := Action.command.inj (ha.symm.trans hv)
        exact ⟨i, hd, hlevel⟩
      · refine .inr ⟨w, .level, 3, ha, hstep.trans hexec, afterRefusal_eq_tail rfl s, .inr (.inr ⟨?_, rfl, rfl⟩)⟩
        exact hwrong.imp (fun ⟨hi, hl⟩ => ⟨hi ▸ hd, hl⟩) (fun ⟨hi, hl⟩ => ⟨hi ▸ hd, hl⟩)
  · have hnot : ∀ w, nextAction s ≠ .command w := not_exists.mp hcmd
    obtain ⟨t, hnext⟩ := step_of_no_command hnot
    exact .inl ⟨t, hnext, (steps_of_step hnext).params, (steps_of_step hnext).input, fun w ha => absurd ha (hnot w)⟩

end Sys2Proof.Machine
end
